-- ==== Sys2Proof/Word.lean ====
section
/-! DEFINITION. The word types of the core (spec 00_scope.md R13, R14). Plain arithmetic on them is `BitVec`'s:
`+` and `-` wrap modulo 2^64 and `^^^` is exclusive-or (R15). -/

namespace Sys2Proof

/-- `u64`: one register, block word or key word (R13, R14). -/
abbrev Word := BitVec 64

/-- One byte of a stream (20_memory.md R70). -/
abbrev Byte := BitVec 8

/-- A byte offset in the register space, 0x000 to 0xFFF (10_state.md R31). -/
abbrev Offset := BitVec 12

end Sys2Proof
end

