-- ==== Sys2Proof/Config.lean ====
section
/-! DEFINITION. What an implementation fixes (`Config`) and the values the spec leaves free.

A free value is an `opaque` constant with no body: no proof can see it, so a claim about it holds whatever it is. -/

namespace Sys2Proof

/-- `BYTE_ORDER` (00_scope.md R12): how eight stream bytes make a word. -/
inductive ByteOrder where
  | le
  | be
deriving DecidableEq, Repr

/-- The parameter of a core instance that a rule depends on (R12, 20_memory.md R74). It is held in the state so that
every claim is about both byte orders, and no step changes it. Assumption log 6. -/
structure Config where
  byteOrder : ByteOrder
deriving DecidableEq, Repr

namespace Config

/-- The spec's default, LE (92_eei_decisions.md D7). -/
def specDefault : Config := { byteOrder := .le }

/-- `BASE`, where the platform places the register space (20_memory.md R83). The core never sees it.
Assumption log 7. -/
opaque base : Nat

/-- FREE VALUE: what the register at offset `off` holds, at the draw numbered `draw`, while it is unwritten
(10_state.md R52 to R54: unspecified, and reading again may give another value). Assumption log 2. -/
opaque unwritten (off : Offset) (draw : Nat) : Word

/-- FREE VALUE: the hidden key word `ka` a fused operation leaves behind (93_implementation_defined.md U10, U16).
Assumption log 4. -/
opaque hiddenKa (draw : Nat) : Word

/-- FREE VALUE: the hidden key word `kb` a fused operation leaves behind (U10, U16). Assumption log 4. -/
opaque hiddenKb (draw : Nat) : Word

/-- FREE VALUE: the hidden round index a fused operation leaves behind (U10). Assumption log 4. -/
opaque hiddenRound (draw : Nat) : Fin 32

end Config

end Sys2Proof
end

