-- ==== Sys2Proof/Syntax.lean ====
section
/-! DEFINITION. The command set (spec/opcode_table.json, 30_encoding.md R104), the fields of a command word (R100) and
the register names (10_state.md R31). -/

namespace Sys2Proof

/-- The 13 commands of R104. No command has an operand field (R102): every operand is fixed by the opcode. -/
inductive Instr where
  | nop
  | rndF
  | rndI
  | ksExp
  | blkEncPre
  | blkDecPre
  | blkEncFus
  | blkDecFus
  | strEncPre
  | strDecPre
  | strEncFus
  | strDecFus
  | srst
deriving DecidableEq, Repr

/-- `DIR` (R100, R103): encrypt runs forward rounds, decrypt inverse rounds. -/
inductive Dir where
  | enc
  | dec
deriving DecidableEq, Repr

/-- `KMODE` (R100, R103): a precomputed schedule or one fused into the block operation. -/
inductive KMode where
  | pre
  | fus
deriving DecidableEq, Repr

/-- The fields of a 64-bit command word (R100), told apart by CLASS = bits 7:4. -/
inductive CmdFields where
  /-- Format SYS, CLASS 0x0 or 0xF: RES = 63:8, OP = 7:0. -/
  | sys (res : BitVec 56) (op : BitVec 8)
  /-- Format MODE, CLASS 0x1 or 0x2: RES = 63:8, CLASS = 7:4, SUB = 3:2, KMODE = 1, DIR = 0. -/
  | mode (res : BitVec 56) (cls : BitVec 4) (sub : BitVec 2) (kmode : KMode) (dir : Dir)
  /-- CLASS 0x3 to 0xE: R100 gives the word no format. -/
  | noFormat (w : Word)
deriving DecidableEq, Repr

/-- Why a command word is no command (the list of R105). Each is ILLEGAL_CMD (60_exceptions.md R261). -/
inductive IllegalCmd where
  /-- RES ≠ 0. -/
  | reservedBits
  /-- Format MODE with SUB ≠ 0. -/
  | subField
  /-- Format SYS with an OP that R100 does not list. -/
  | opcode
  /-- CLASS 0x3 to 0xE. -/
  | commandClass
deriving DecidableEq, Repr

/-- The registers of the register map (10_state.md R31, names as in 30_encoding.md R107). -/
inductive Reg where
  | cmd
  | status
  | key0
  | key1
  | x
  | y
  | rkin
  | rk (i : Fin 32)
deriving DecidableEq, Repr

end Sys2Proof
end

