-- ==== Sys2Proof/WellFormed.lean ====
section
/-! DEFINITION. Well-formedness of commands and of a command word's fields (30_encoding.md R100, R102, R105). -/

namespace Sys2Proof

/-- A command has no operand (R102), so every constructor is well formed as it stands. -/
def Instr.wf : Instr → Bool
  | .nop | .rndF | .rndI | .ksExp => true
  | .blkEncPre | .blkDecPre | .blkEncFus | .blkDecFus => true
  | .strEncPre | .strDecPre | .strEncFus | .strDecFus => true
  | .srst => true

/-- The opcodes of format SYS (R100). -/
def sysOpcodes : List (BitVec 8) := [0x00#8, 0x01#8, 0x02#8, 0x03#8, 0xFF#8]

/-- The fields are those of a command: RES and SUB are 0 ("reserved, must be 0"), OP is listed, CLASS is BLK or STR
(R100, R105). -/
def CmdFields.wf : CmdFields → Bool
  | .sys res op => res == 0#56 && sysOpcodes.contains op
  | .mode res cls sub _ _ => res == 0#56 && (cls == 0x1#4 || cls == 0x2#4) && sub == 0#2
  | .noFormat _ => false

end Sys2Proof
end

