-- ==== Sys2Proof/Decode.lean ====
section
/-! DEFINITION. The command decoder (30_encoding.md R101), total on 64-bit words and rejecting by name, and the encoder
(R103, R104). Decoding depends on the word alone, never on state (R106). -/

namespace Sys2Proof

/-- `KMODE` = bit 1: 0 = precomputed, 1 = fused (R100). -/
def KMode.ofBit (b : Bool) : KMode := if b then .fus else .pre

/-- `DIR` = bit 0: 0 = encrypt, 1 = decrypt (R100). -/
def Dir.ofBit (b : Bool) : Dir := if b then .dec else .enc

def KMode.toBit : KMode → Bool
  | .pre => false
  | .fus => true

def Dir.toBit : Dir → Bool
  | .enc => false
  | .dec => true

/-- The fields of a command word, by its CLASS field `v[7:4]` (R100). -/
def CmdFields.ofWord (v : Word) : CmdFields :=
  let res := v.extractLsb' 8 56
  let cls := v.extractLsb' 4 4
  if cls = 0x0#4 ∨ cls = 0xF#4 then
    .sys res (v.extractLsb' 0 8)
  else if cls = 0x1#4 ∨ cls = 0x2#4 then
    .mode res cls (v.extractLsb' 2 2) (KMode.ofBit (v.getLsbD 1)) (Dir.ofBit (v.getLsbD 0))
  else
    .noFormat v

/-- The word that has the given fields (R100). -/
def CmdFields.toWord : CmdFields → Word
  | .sys res op => res ++ op
  | .mode res cls sub k d => res ++ cls ++ sub ++ BitVec.ofBool k.toBit ++ BitVec.ofBool d.toBit
  | .noFormat w => w

/-- Format SYS: the whole low byte is the opcode (R100). -/
def decodeSys (op : BitVec 8) : Except IllegalCmd Instr :=
  if op = 0x00#8 then .ok .nop
  else if op = 0x01#8 then .ok .rndF
  else if op = 0x02#8 then .ok .rndI
  else if op = 0x03#8 then .ok .ksExp
  else if op = 0xFF#8 then .ok .srst
  else .error .opcode

/-- CLASS 0x1, one block from X and Y: (DIR, KMODE) selects one of four strategies (R103). -/
def decodeBlk : KMode → Dir → Instr
  | .pre, .enc => .blkEncPre
  | .pre, .dec => .blkDecPre
  | .fus, .enc => .blkEncFus
  | .fus, .dec => .blkDecFus

/-- CLASS 0x2, a stream: (DIR, KMODE) selects one of four strategies (R103). -/
def decodeStr : KMode → Dir → Instr
  | .pre, .enc => .strEncPre
  | .pre, .dec => .strDecPre
  | .fus, .enc => .strEncFus
  | .fus, .dec => .strDecFus

/-- The command that a word's fields name (R101, R105). -/
def CmdFields.instr : CmdFields → Except IllegalCmd Instr
  | .sys res op => if res = 0#56 then decodeSys op else .error .reservedBits
  | .mode res cls sub k d =>
    if res ≠ 0#56 then .error .reservedBits
    else if sub ≠ 0#2 then .error .subField
    else if cls = 0x1#4 then .ok (decodeBlk k d)
    else if cls = 0x2#4 then .ok (decodeStr k d)
    else .error .commandClass
  | .noFormat v => if v.extractLsb' 8 56 = 0#56 then .error .commandClass else .error .reservedBits

/-- The decoder (R101): the command of a 64-bit word, or the reason why it is none. -/
def decode (v : Word) : Except IllegalCmd Instr := (CmdFields.ofWord v).instr

/-- The fields of each command (R104). -/
def Instr.fields : Instr → CmdFields
  | .nop => .sys 0#56 0x00#8
  | .rndF => .sys 0#56 0x01#8
  | .rndI => .sys 0#56 0x02#8
  | .ksExp => .sys 0#56 0x03#8
  | .blkEncPre => .mode 0#56 0x1#4 0#2 .pre .enc
  | .blkDecPre => .mode 0#56 0x1#4 0#2 .pre .dec
  | .blkEncFus => .mode 0#56 0x1#4 0#2 .fus .enc
  | .blkDecFus => .mode 0#56 0x1#4 0#2 .fus .dec
  | .strEncPre => .mode 0#56 0x2#4 0#2 .pre .enc
  | .strDecPre => .mode 0#56 0x2#4 0#2 .pre .dec
  | .strEncFus => .mode 0#56 0x2#4 0#2 .fus .enc
  | .strDecFus => .mode 0#56 0x2#4 0#2 .fus .dec
  | .srst => .sys 0#56 0xFF#8

/-- The encoder: the CMD value of a command (R103, R104). -/
def encode (i : Instr) : Word := i.fields.toWord

/-- What the decoder reads from a command word whose bits are `w`, numbered as spec/opcode_table.json numbers them;
bits from `nbits` up are 0. A number over 64 bits is no command word. -/
def decodeTableWord (nbits w : Nat) : Option Instr :=
  let v := w % 2 ^ nbits
  if v < 2 ^ 64 then
    match decode (BitVec.ofNat 64 v) with
    | .ok i => some i
    | .error _ => none
  else none

/-- The byte offset of each register (10_state.md R31). -/
def Reg.offset : Reg → Offset
  | .cmd => 0x000#12
  | .status => 0x008#12
  | .key0 => 0x010#12
  | .key1 => 0x018#12
  | .x => 0x020#12
  | .y => 0x028#12
  | .rkin => 0x030#12
  | .rk i => BitVec.ofNat 12 (0x040 + 8 * i.val)

/-- The register of the given 64-bit slot (slot n is offset 8·n); `none` for a reserved slot (R31). -/
def Reg.ofSlot (n : Nat) : Option Reg :=
  if n = 0 then some .cmd
  else if n = 1 then some .status
  else if n = 2 then some .key0
  else if n = 3 then some .key1
  else if n = 4 then some .x
  else if n = 5 then some .y
  else if n = 6 then some .rkin
  else if h : 8 ≤ n ∧ n < 40 then some (.rk ⟨n - 8, by omega⟩)
  else none

/-- The register at a byte offset; `none` where the offset is misaligned (20_memory.md R76) or reserved (R31). -/
def Reg.ofOffset (off : Offset) : Option Reg :=
  if off.toNat % 8 = 0 then Reg.ofSlot (off.toNat / 8) else none

/-- A host may read every register but CMD (10_state.md R31). -/
def Reg.readable : Reg → Bool
  | .cmd => false
  | .status | .key0 | .key1 | .x | .y | .rkin | .rk _ => true

/-- A host may write CMD, KEY0, KEY1, X, Y and RKIN (R31). -/
def Reg.writable : Reg → Bool
  | .cmd | .key0 | .key1 | .x | .y | .rkin => true
  | .status | .rk _ => false

end Sys2Proof
end

