-- ==== Sys2Proof/Machine/State.lean ====
section
/-! DEFINITION. The state of the core and of the host side of its interface, as plain data, and the state right after
reset (spec 10_state.md, table of R55). -/

namespace Sys2Proof.Machine

/-- A Block: exactly two 64-bit words (00_scope.md R11). -/
structure Block where
  x : Word
  y : Word
deriving DecidableEq, Repr

/-- The running pair (a, b) of the key schedule (41_key_schedule.md R151). -/
structure KeyPair where
  a : Word
  b : Word
deriving DecidableEq, Repr

/-- STATUS.ERRCODE (60_exceptions.md R261). Codes 8 to 15 are reserved and never produced. -/
inductive ErrCode where
  /-- 0: no error since reset. -/
  | noError
  /-- 1: a CMD value not in R104. -/
  | illegalCmd
  /-- 2: KV0 = 0 or KV1 = 0 when a command needs the key. -/
  | noKey
  /-- 3: SCHED_VALID = 0 for a precomputed block command. -/
  | noSched
  /-- 4: a host access of 20_memory.md R82. -/
  | badAccess
  /-- 5: a host write other than SRST while BUSY = 1. -/
  | busyWrite
  /-- 6: `InRead16` returned ReadFail. -/
  | inErr
  /-- 7: `OutWrite16` returned WriteFail. -/
  | outErr
deriving DecidableEq, Repr

/-- What `InRead16` returns (20_memory.md R84). -/
inductive ReadAnswer where
  /-- `Chunk(bytes, n)` with n the number of bytes, 0 to 16. -/
  | chunk (bytes : List Byte)
  | readFail
deriving DecidableEq, Repr

/-- What `OutWrite16` returns (20_memory.md R85). -/
inductive WriteAnswer where
  | ok
  | writeFail
deriving DecidableEq, Repr

/-- What happens next outside the core, in the host's order. The host's sequence of accesses is the program
(10_state.md R32); the statements are those of 30_encoding.md R107, and the rest is what the host does at the stream
ports and the reset pin. Assumption log 8. -/
inductive HostEvent where
  /-- `RD`: one BusRead (20_memory.md R80). -/
  | rd (off : Offset)
  /-- `WR` or `CMD`: one BusWrite (R81). -/
  | wr (off : Offset) (v : Word)
  /-- `WAIT`: read STATUS until bit 0 is 0 (30_encoding.md R107). Assumption log 10. -/
  | wait
  /-- `IN`: the host appends bytes to the input stream. -/
  | inBytes (bs : List Byte)
  /-- `EOS`: the host marks the end of the input stream. -/
  | eos
  /-- The scheduler lets the core take its stream step, if it has one (20_memory.md R86). Assumption log 9. -/
  | core
  /-- The host begins, or stops, accepting output writes (R85). Assumption log 11. -/
  | outReady (ready : Bool)
  /-- The host reports a failure of an input read (R84). Assumption log 12. -/
  | failIn
  /-- The host reports a failure of an output write, `m` of whose bytes are appended (R85, U4). Assumption log 13. -/
  | failOut (m : Fin 17)
  /-- The host attaches a new input and a new, empty output stream (R93, 95_test_vectors.md P3). -/
  | attach
  /-- The RST_N input is driven: `false` is low, asserted (70_reset_and_hazards.md R300). Assumption log 17. -/
  | rstN (level : Bool)
deriving DecidableEq, Repr

/-- Why the model stops. No command and no register access ends here: both are a host breaking its own duty. -/
inductive Fault where
  /-- Raised by `hostEvent`: the host attaches other streams while a stream command runs, which 20_memory.md R93
  forbids and gives no effect. Safe: the model stops where the hardware may go on. Assumption log 14. -/
  | attachWhileBusy
  /-- Raised by `hostEvent`: the host supplies bytes after it marked the end of the input stream (R84 gives them no
  meaning). Safe: the model stops. Assumption log 14. -/
  | inputAfterEnd
deriving DecidableEq, Repr

/-- Why the model gives no meaning. -/
inductive Refusal where
  /-- A command that `exec` has no meaning for; none is left. Safe. -/
  | notModelled (mnemonic : String)
deriving DecidableEq, Repr

/-- The whole state: the core's registers, STATUS fields and hidden state, the reset pin, and the host's side. -/
structure State where
  /-- KEY0 (10_state.md R33). -/
  k0 : Word
  /-- KEY1 (R33). -/
  k1 : Word
  /-- X (R35). -/
  x : Word
  /-- Y (R35). -/
  y : Word
  /-- RKIN (R36). -/
  rkin : Word
  /-- RK[0..31] (R37). -/
  rk : Vector Word 32
  /-- STATUS.BUSY (R41). -/
  busy : Bool
  /-- STATUS.KV0 (R42), which is also the mark that K0 is written (R52). -/
  kv0 : Bool
  /-- STATUS.KV1 (R42), likewise for K1. -/
  kv1 : Bool
  /-- STATUS.SCHED_VALID (R43). -/
  schedValid : Bool
  /-- STATUS.ERR (R44). -/
  err : Bool
  /-- STATUS.ERRCODE (R44). -/
  errCode : ErrCode
  /-- X has been written since reset (R52). -/
  xWritten : Bool
  /-- Y has been written since reset (R52). -/
  yWritten : Bool
  /-- RKIN has been written since reset (R52). -/
  rkinWritten : Bool
  /-- RK has been written since reset; an expansion writes all 32 entries at once (R37, R52). -/
  rkWritten : Bool
  /-- Hidden key word ka (R48). -/
  ka : Word
  /-- Hidden key word kb (R48). -/
  kb : Word
  /-- Hidden round index (R48). -/
  roundIdx : Fin 32
  /-- Hidden scratch schedule SRK[0..31] (R50). -/
  srk : Vector Word 32
  /-- S_DIR (R49). -/
  sDir : Dir
  /-- S_KMODE (R49). -/
  sKMode : KMode
  /-- S_FINAL (R49): a short chunk has been read. -/
  sFinal : Bool
  /-- S_PEND (R49): 1 between a read phase and its write phase. -/
  sPend : Bool
  /-- OB, the pending output block (R49). -/
  ob : Block
  /-- The hidden input position: bytes the running stream command has consumed (R49). Assumption log 15. -/
  inPos : Nat
  /-- The RST_N input; `true` is high (70_reset_and_hazards.md R300). -/
  rstN : Bool
  /-- `BYTE_ORDER` of this core (00_scope.md R12); fixed (20_memory.md R74). -/
  cfg : Config
  /-- The input stream: all the host has supplied since it attached it (R84). -/
  input : List Byte
  /-- The read position `p` in the input stream (R84). -/
  inPtr : Nat
  /-- The end of the input stream is marked (R84). -/
  inEnd : Bool
  /-- A read failure is reported and not yet delivered (R84, U5). -/
  inFail : Bool
  /-- The output stream (R85). -/
  output : List Byte
  /-- The host accepts output writes (R85). -/
  outReady : Bool
  /-- A write failure is reported and not yet delivered, with its `m` (R85, U4, U5). -/
  outFail : Option (Fin 17)
  /-- The host's events still to come, the next one first. -/
  pending : List HostEvent
  /-- What the host's reads have returned, oldest first (30_encoding.md R107). Assumption log 18. -/
  reads : List Word
  /-- The MODEL's own: the number of the next free value (`Config.unwritten` and the hidden values).
  Assumption log 5. -/
  draw : Nat
deriving DecidableEq, Repr

/-- The state right after reset (R55, R300, R301). Data registers are unwritten: the 0 in their fields is the model's
choice (assumption log 1, 3) and no read of an unwritten register returns it. -/
def State.reset : State where
  k0 := 0
  k1 := 0
  x := 0
  y := 0
  rkin := 0
  rk := Vector.replicate 32 0
  busy := false
  kv0 := false
  kv1 := false
  schedValid := false
  err := false
  errCode := .noError
  xWritten := false
  yWritten := false
  rkinWritten := false
  rkWritten := false
  ka := 0
  kb := 0
  roundIdx := 0
  srk := Vector.replicate 32 0
  sDir := .enc
  sKMode := .pre
  sFinal := false
  sPend := false
  ob := ⟨0, 0⟩
  inPos := 0
  rstN := true
  cfg := Config.specDefault
  input := []
  inPtr := 0
  inEnd := false
  inFail := false
  output := []
  outReady := true
  outFail := none
  pending := []
  reads := []
  draw := 0

end Sys2Proof.Machine
end

