-- ==== Sys2Proof/Machine/Flags.lean ====
section
/-! DEFINITION. The STATUS register, the core's only flags (10_state.md R40, R45): how its word is put together and the
one condition that is not a separate bit. The arithmetic sets no flag (R45, 40_round_function.md R136). -/

namespace Sys2Proof.Machine

/-- The number of an error code (60_exceptions.md R261), in its 4-bit field. -/
def ErrCode.bits : ErrCode → BitVec 4
  | .noError => 0#4
  | .illegalCmd => 1#4
  | .noKey => 2#4
  | .noSched => 3#4
  | .badAccess => 4#4
  | .busyWrite => 5#4
  | .inErr => 6#4
  | .outErr => 7#4

/-- `zext_64` of one bit (00_scope.md R14). -/
def zextBit (b : Bool) : Word := (BitVec.ofBool b).setWidth 64

/-- The STATUS word as `BusRead(0x008)` puts it together (20_memory.md R80); all other bits are 0 (10_state.md R40). -/
def State.statusWord (s : State) : Word :=
  (s.errCode.bits.setWidth 64) <<< 8 ||| zextBit s.err <<< 4 ||| zextBit s.schedValid <<< 3
    ||| zextBit s.kv1 <<< 2 ||| zextBit s.kv0 <<< 1 ||| zextBit s.busy

/-- KEY_VALID: both key words have been written since reset (10_state.md R42). -/
def State.keyValid (s : State) : Bool := s.kv0 && s.kv1

end Sys2Proof.Machine
end

