-- ==== Sys2Proof/Machine/Operands.lean ====
section
/-! DEFINITION. Operands: rotations (00_scope.md R16), the byte layout of a block (20_memory.md R72, R73), and the value
a register gives when it is read (10_state.md R52 to R54). -/

namespace Sys2Proof.Machine

/-- `rotate_right` on 64 bits, 0 < n < 64 (R16). -/
def rotr64 (v : Word) (n : Nat) : Word := (v >>> n) ||| (v <<< (64 - n))

/-- `rotate_left` on 64 bits, 0 < n < 64 (R16). -/
def rotl64 (v : Word) (n : Nat) : Word := (v <<< n) ||| (v >>> (64 - n))

/-- `Σ c[j]·2^(8j)`: the first byte is the least significant (R72, LE). -/
def leWord : List Byte → Word
  | [] => 0#64
  | c :: cs => c.setWidth 64 + (leWord cs <<< 8)

/-- Byte `j` of a word, counted from its least significant byte (R73, LE). -/
def leByte (w : Word) (j : Nat) : Byte := w.extractLsb' (8 * j) 8

/-- The eight bytes of a word, least significant first (R73, LE). -/
def leBytes (w : Word) : List Byte := (List.range 8).map (leByte w)

/-- `Word(c[0..7])`: eight stream bytes to a word, by `BYTE_ORDER` (R72). -/
def wordOfBytes : ByteOrder → List Byte → Word
  | .le, cs => leWord cs
  | .be, cs => leWord cs.reverse

/-- `Bytes(w)`: a word to its eight stream bytes, by `BYTE_ORDER` (R73). -/
def bytesOfWord : ByteOrder → Word → List Byte
  | .le, w => leBytes w
  | .be, w => (leBytes w).reverse

/-- Zero-fill of a chunk to 16 bytes (43_stream_driver.md R206). -/
def zeroFill (c : List Byte) : List Byte := c ++ List.replicate (16 - c.length) 0#8

/-- A 16-byte chunk as a block: bytes 0 to 7 are y, bytes 8 to 15 are x (R72, R207). -/
def blockOfChunk (bo : ByteOrder) (c : List Byte) : Block :=
  { y := wordOfBytes bo (c.take 8), x := wordOfBytes bo (c.drop 8) }

/-- A result block as its 16 output bytes: y' then x' (R73, R207). -/
def bytesOfBlock (bo : ByteOrder) (b : Block) : List Byte := bytesOfWord bo b.y ++ bytesOfWord bo b.x

/-- The register has been written since reset (10_state.md R52). STATUS always reads as its fields, and CMD holds
nothing (R39). K0 and K1 are written exactly when KV0 and KV1 are set (R42). -/
def State.written (s : State) : Reg → Bool
  | .cmd => true
  | .status => true
  | .key0 => s.kv0
  | .key1 => s.kv1
  | .x => s.xWritten
  | .y => s.yWritten
  | .rkin => s.rkinWritten
  | .rk _ => s.rkWritten

/-- What the register's storage holds. CMD holds no state (R39) and no read reaches this line. -/
def State.stored (s : State) : Reg → Word
  | .cmd => 0#64
  | .status => s.statusWord
  | .key0 => s.k0
  | .key1 => s.k1
  | .x => s.x
  | .y => s.y
  | .rkin => s.rkin
  | .rk i => s.rk[i.val]

/-- The value a read of the register gives: what it holds, or a free value while it is unwritten (R52 to R54).
DESIGN CHOICE: the spec asks a model to stop there; the hardware goes on, and so does this model (assumption log 2). -/
def State.value (s : State) (r : Reg) : Word :=
  if s.written r then s.stored r else Config.unwritten r.offset s.draw

/-- The block a command takes from X and Y (10_state.md R35). -/
def State.block (s : State) : Block := ⟨s.value .x, s.value .y⟩

end Sys2Proof.Machine
end

