-- ==== Sys2Proof/Machine/Ops.lean ====
section
/-! DEFINITION. The shared operations: error entry (60_exceptions.md R263) and its one exit, reset (R265,
70_reset_and_hazards.md R300); block write-back; host register writes; the two stream ports (20_memory.md R84, R85). -/

namespace Sys2Proof.Machine

/-- Later free values are other ones (assumption log 5). -/
def State.nextDraw (s : State) : State := { s with draw := s.draw + 1 }

/-- `raise Error(code)` (R263): the first error since reset is kept; a running stream ends and a pending output block
is dropped. The core has no vector and saves nothing. -/
def State.raiseError (s : State) (code : ErrCode) : State :=
  { s with
    err := true
    errCode := if s.err then s.errCode else code
    busy := false
    sPend := false }

/-- `Reset()` (R300): every item of R55 takes its reset value. The pin, the parameters, the host's streams, its reports,
its program and what it has read are not core state and are not touched (R51, R55). -/
def State.resetCore (s : State) : State :=
  { State.reset with
    rstN := s.rstN
    cfg := s.cfg
    input := s.input
    inPtr := s.inPtr
    inEnd := s.inEnd
    inFail := s.inFail
    output := s.output
    outReady := s.outReady
    outFail := s.outFail
    pending := s.pending
    reads := s.reads
    draw := s.draw }

/-- `X <- x1; Y <- y1` (10_state.md R35); both become written (R52). -/
def State.writeBlock (s : State) (b : Block) : State :=
  { s with x := b.x, y := b.y, xWritten := true, yWritten := true }

/-- A fused operation uses the hidden pair (ka, kb) and round index (R48) and leaves them at any value
(93_implementation_defined.md U10, U16; assumption log 4). -/
def State.useKeyPair (s : State) : State :=
  { s with
    ka := Config.hiddenKa s.draw
    kb := Config.hiddenKb s.draw
    roundIdx := Config.hiddenRound s.draw
    draw := s.draw + 1 }

/-- An accepted host write to a register that holds state (20_memory.md R81; 10_state.md R33, R35, R36). A key write
sets its KV bit and clears SCHED_VALID. CMD holds nothing (R39); STATUS and RK are not written by the host (R82). -/
def State.writeReg (s : State) (v : Word) : Reg → State
  | .key0 => { s with k0 := v, kv0 := true, schedValid := false }
  | .key1 => { s with k1 := v, kv1 := true, schedValid := false }
  | .x => { s with x := v, xWritten := true }
  | .y => { s with y := v, yWritten := true }
  | .rkin => { s with rkin := v, rkinWritten := true }
  | .cmd | .status | .rk _ => s

/-- Input bytes not yet consumed: those from the read position on (20_memory.md R84). -/
def State.unread (s : State) : List Byte := s.input.drop s.inPtr

/-- `InRead16()` (R84): `none` while the request cannot be answered; otherwise the answer and the state after it. A
failure report is looked at first and is delivered once (assumption log 12). -/
def State.inRead16 (s : State) : Option (ReadAnswer × State) :=
  if s.inFail then
    some (.readFail, { s with inFail := false })
  else if 16 ≤ s.unread.length ∨ s.inEnd = true then
    let c := s.unread.take 16
    some (.chunk c, { s with inPtr := s.inPtr + c.length, inPos := s.inPos + c.length })
  else none

/-- `OutWrite16(o)` (R85): `none` while the host neither accepts nor reports failure; otherwise the answer and the state
after it. A failed write appends the first `m` bytes (U4); a report is delivered once (assumption log 11, 13). -/
def State.outWrite16 (s : State) (o : List Byte) : Option (WriteAnswer × State) :=
  match s.outFail with
  | some m => some (.writeFail, { s with output := s.output ++ o.take m.val, outFail := none })
  | none => if s.outReady then some (.ok, { s with output := s.output ++ o }) else none

end Sys2Proof.Machine
end

