-- ==== Sys2Proof/Machine/Control.lean ====
section
/-! DEFINITION. The control commands NOP and SRST (44_control.md). -/

namespace Sys2Proof.Machine

/-- NOP (R240): changes no state. -/
def execNop (s : State) : Host.Outcome State Fault Refusal := .next s

/-- SRST (R242): `Reset()`. -/
def execSrst (s : State) : Host.Outcome State Fault Refusal := .next s.resetCore

end Sys2Proof.Machine
end

