-- ==== Sys2Proof/Machine/Round.lean ====
section
/-! DEFINITION. The round function and the commands RND_F and RND_I (40_round_function.md). -/

namespace Sys2Proof.Machine

/-- `RoundF(x, y, k)` (R131). -/
def roundF (b : Block) (k : Word) : Block :=
  let x1 := (rotr64 b.x 8 + b.y) ^^^ k
  { x := x1, y := rotl64 b.y 3 ^^^ x1 }

/-- `RoundI(x, y, k)` (R132). -/
def roundI (b : Block) (k : Word) : Block :=
  let y1 := rotr64 (b.y ^^^ b.x) 3
  { x := rotl64 ((b.x ^^^ k) - y1) 8, y := y1 }

/-- RND_F (R134): one forward round on X, Y with RKIN; all three are read before any write, no flag changes. -/
def execRndF (s : State) : Host.Outcome State Fault Refusal :=
  .next ((s.writeBlock (roundF s.block (s.value .rkin))).nextDraw)

/-- RND_I (R135): one inverse round on X, Y with RKIN. -/
def execRndI (s : State) : Host.Outcome State Fault Refusal :=
  .next ((s.writeBlock (roundI s.block (s.value .rkin))).nextDraw)

end Sys2Proof.Machine
end

