-- ==== Sys2Proof/Machine/KeySchedule.lean ====
section
/-! DEFINITION. The key schedule and the command KS_EXP (41_key_schedule.md). -/

namespace Sys2Proof.Machine

/-- `GenStep(a, b, i)` (R151): one forward round with b in the x position, a in the y position and the round index as
the key. -/
def genStep (p : KeyPair) (i : Nat) : KeyPair :=
  let r := roundF ⟨p.b, p.a⟩ (BitVec.ofNat 64 i)
  { a := r.y, b := r.x }

/-- `n` round keys from round index `i` on: record `a`, then advance (R151). -/
def keysFrom : (n i : Nat) → KeyPair → List Word
  | 0, _, _ => []
  | n + 1, i, p => p.a :: keysFrom n (i + 1) (genStep p i)

theorem keysFrom_length (n i : Nat) (p : KeyPair) : (keysFrom n i p).length = n := by
  induction n generalizing i p with
  | zero => rfl
  | succ n ih => simp [keysFrom, ih]

/-- `expand(K0, K1)` (R150, R151): the 32 round keys. -/
def expand (k0 k1 : Word) : Vector Word 32 :=
  ⟨(keysFrom 32 0 ⟨k0, k1⟩).toArray, by simp [keysFrom_length]⟩

/-- `RK[i] <- expand(K0, K1)[i]` for all i; SCHED_VALID <- 1 (R152, 43_stream_driver.md R202). -/
def State.loadSchedule (s : State) : State :=
  { s with rk := expand s.k0 s.k1, rkWritten := true, schedValid := true }

/-- KS_EXP (R152). -/
def execKsExp (s : State) : Host.Outcome State Fault Refusal :=
  if s.keyValid then .next s.loadSchedule else .next (s.raiseError .noKey)

end Sys2Proof.Machine
end

