-- ==== Sys2Proof/Machine/BlockCipher.lean ====
section
/-! DEFINITION. The block transforms and the four BLK_* commands (42_block_cipher.md). -/

namespace Sys2Proof.Machine

/-- `Enc(rk, x, y)` (R171): 32 forward rounds, i = 0 to 31. -/
def enc (rk : Vector Word 32) (b : Block) : Block := rk.toList.foldl roundF b

/-- `Dec(rk, x, y)` (R173): 32 inverse rounds, i = 31 down to 0. -/
def dec (rk : Vector Word 32) (b : Block) : Block := rk.toList.reverse.foldl roundI b

/-- `n` rounds of `EncFused` from round index `i` on: take `a` as this round's key, advance the pair, apply the round
(R175). -/
def encFusedFrom : (n i : Nat) → KeyPair → Block → Block
  | 0, _, _, b => b
  | n + 1, i, p, b => encFusedFrom n (i + 1) (genStep p i) (roundF b p.a)

/-- `EncFused(K0, K1, x, y)` (R175). -/
def encFused (k0 k1 : Word) (b : Block) : Block := encFusedFrom 32 0 ⟨k0, k1⟩ b

/-- The last loop of `DecFused` (R177): inverse rounds over the scratch schedule, i = 31 down to 0. -/
def decScratch (srk : Vector Word 32) (b : Block) : Block := srk.toList.foldr (fun k c => roundI c k) b

/-- `DecFused(K0, K1, x, y)` (R177): rebuild the whole schedule, then 32 inverse rounds. -/
def decFused (k0 k1 : Word) (b : Block) : Block := decScratch (expand k0 k1) b

/-- The scratch schedule is rebuilt (R177; 10_state.md R50). RK and SCHED_VALID stay (R170). -/
def State.rebuildScratch (s : State) : State := { s with srk := expand s.k0 s.k1 }

/-- A precomputed block command (R172, R174): NO_SCHED without a schedule, else the block is transformed in place. -/
def blkPre (f : Vector Word 32 → Block → Block) (s : State) : Host.Outcome State Fault Refusal :=
  if s.schedValid then .next ((s.writeBlock (f s.rk s.block)).nextDraw) else .next (s.raiseError .noSched)

/-- BLK_ENC_PRE (R172). -/
def execBlkEncPre (s : State) : Host.Outcome State Fault Refusal := blkPre enc s

/-- BLK_DEC_PRE (R174). -/
def execBlkDecPre (s : State) : Host.Outcome State Fault Refusal := blkPre dec s

/-- BLK_ENC_FUS (R176): uses the hidden ka and kb. -/
def execBlkEncFus (s : State) : Host.Outcome State Fault Refusal :=
  if s.keyValid then .next ((s.writeBlock (encFused s.k0 s.k1 s.block)).useKeyPair)
  else .next (s.raiseError .noKey)

/-- BLK_DEC_FUS (R178): uses the hidden SRK, and the pair while it rebuilds the schedule (R170, R177). -/
def execBlkDecFus (s : State) : Host.Outcome State Fault Refusal :=
  if s.keyValid then .next ((s.writeBlock (decFused s.k0 s.k1 s.block)).rebuildScratch.useKeyPair)
  else .next (s.raiseError .noKey)

end Sys2Proof.Machine
end

