-- ==== Sys2Proof/Machine/StreamDriver.lean ====
section
/-! DEFINITION. The stream driver (43_stream_driver.md): the start of the four STR_* commands, and the read and write
phases of a running stream. -/

namespace Sys2Proof.Machine

/-- `StreamStart(dir, kmode)` (R202): latch the mode, expand once if precomputed, BUSY <- 1. No stream byte moves. The
hidden count of bytes consumed starts again (assumption log 15). -/
def State.startStream (s : State) (d : Dir) (k : KMode) : State :=
  let s1 := { s with sDir := d, sKMode := k, sFinal := false, sPend := false, inPos := 0 }
  let s2 := match k with
    | .pre => s1.loadSchedule
    | .fus => s1
  { s2 with busy := true }

/-- The start check (R201), then the start action (R202). -/
def streamCommand (d : Dir) (k : KMode) (s : State) : Host.Outcome State Fault Refusal :=
  if s.keyValid then .next (s.startStream d k) else .next (s.raiseError .noKey)

/-- STR_ENC_PRE (R210). -/
def execStrEncPre (s : State) : Host.Outcome State Fault Refusal := streamCommand .enc .pre s

/-- STR_DEC_PRE (R211). -/
def execStrDecPre (s : State) : Host.Outcome State Fault Refusal := streamCommand .dec .pre s

/-- STR_ENC_FUS (R212). -/
def execStrEncFus (s : State) : Host.Outcome State Fault Refusal := streamCommand .enc .fus s

/-- STR_DEC_FUS (R213). -/
def execStrDecFus (s : State) : Host.Outcome State Fault Refusal := streamCommand .dec .fus s

/-- `Transform(S_DIR, S_KMODE, x, y)` (R204), by the latched mode and the key material as it stands. -/
def State.transform (s : State) (b : Block) : Block :=
  match s.sDir, s.sKMode with
  | .enc, .pre => enc s.rk b
  | .dec, .pre => dec s.rk b
  | .enc, .fus => encFused s.k0 s.k1 b
  | .dec, .fus => decFused s.k0 s.k1 b

/-- What the transform does to the hidden state (R102, R204): fused modes use ka and kb, fused decryption SRK too. -/
def State.transformHidden (s : State) : State :=
  match s.sDir, s.sKMode with
  | _, .pre => s
  | .enc, .fus => s.useKeyPair
  | .dec, .fus => s.rebuildScratch.useKeyPair

/-- The read phase after `InRead16` returned `n ≥ 1` bytes (R203, R206): zero-fill and S_FINAL for a short chunk, the
transformed block to OB, S_PEND <- 1. -/
def State.takeChunk (s : State) (c : List Byte) : State :=
  { s.transformHidden with
    ob := s.transform (blockOfChunk s.cfg.byteOrder (zeroFill c))
    sFinal := s.sFinal || decide (c.length < 16)
    sPend := true }

/-- `ReadPhase()` (R203); `none` while the read cannot be answered. Zero bytes end the command without error (R205). -/
def State.readPhase (s : State) : Option State :=
  match s.inRead16 with
  | none => none
  | some (.readFail, s1) => some (s1.raiseError .inErr)
  | some (.chunk c, s1) => if c.length = 0 then some { s1 with busy := false } else some (s1.takeChunk c)

/-- `WritePhase()` (R203); `none` while the write cannot be answered. X and Y take the block whether the write succeeds
or fails (R208); the final block ends the command (R209). -/
def State.writePhase (s : State) : Option State :=
  match s.outWrite16 (bytesOfBlock s.cfg.byteOrder s.ob) with
  | none => none
  | some (w, s1) =>
    let s2 := { s1.writeBlock s1.ob with sPend := false }
    match w with
    | .writeFail => some (s2.raiseError .outErr)
    | .ok => some { s2 with busy := s2.busy && !s2.sFinal }

/-- The stream step (R203): while BUSY = 1 and ERR = 0, one phase, chosen by S_PEND. `none`: no step is enabled, the
core is idle or held (20_memory.md R84, R86). -/
def State.streamStep (s : State) : Option State :=
  if s.busy && !s.err then
    if s.sPend then s.writePhase else s.readPhase
  else none

/-- The core's turn: it takes its stream step, or nothing moves. -/
def State.coreTurn (s : State) : State :=
  match s.streamStep with
  | some t => t
  | none => s

end Sys2Proof.Machine
end

