-- ==== Sys2Proof/Machine/Dispatch.lean ====
section
/-! DEFINITION. One arm per command (30_encoding.md R101). -/

namespace Sys2Proof.Machine

def exec (i : Instr) (s : State) : Host.Outcome State Fault Refusal :=
  match i with
  | .nop => Sys2Proof.Machine.execNop s
  | .rndF => Sys2Proof.Machine.execRndF s
  | .rndI => Sys2Proof.Machine.execRndI s
  | .ksExp => Sys2Proof.Machine.execKsExp s
  | .blkEncPre => Sys2Proof.Machine.execBlkEncPre s
  | .blkDecPre => Sys2Proof.Machine.execBlkDecPre s
  | .blkEncFus => Sys2Proof.Machine.execBlkEncFus s
  | .blkDecFus => Sys2Proof.Machine.execBlkDecFus s
  | .strEncPre => Sys2Proof.Machine.execStrEncPre s
  | .strDecPre => Sys2Proof.Machine.execStrDecPre s
  | .strEncFus => Sys2Proof.Machine.execStrEncFus s
  | .strDecFus => Sys2Proof.Machine.execStrDecFus s
  | .srst => Sys2Proof.Machine.execSrst s

end Sys2Proof.Machine
end

