-- ==== Sys2Proof/Machine/Bus.lean ====
section
/-! DEFINITION. The register bus: BusRead, Issue and BusWrite (20_memory.md R80, R81; 30_encoding.md R101), and the
reset pin (70_reset_and_hazards.md R300). -/

namespace Sys2Proof.Machine

/-- A bad read (R80, R82): BAD_ACCESS when ERR = 0; in the error state nothing is recorded (60_exceptions.md R264). -/
def State.badRead (s : State) : State := if s.err then s else s.raiseError .badAccess

/-- `BusRead(off)` (R80): the value returned and the state after. A read of an unwritten register uses up a free value
(assumption log 2); every other good read has no side effect (R79). While RST_N is low a read returns 0 (R300). -/
def busRead (off : Offset) (s : State) : Word × State :=
  if s.rstN = false then (0#64, s)
  else
    match Reg.ofOffset off with
    | none => (0#64, s.badRead)
    | some r =>
      if r.readable = false then (0#64, s.badRead)
      else (s.value r, if s.written r then s else s.nextDraw)

/-- `Issue(v)` (R101): decode and dispatch; a word that is no command raises ILLEGAL_CMD and has no other effect
(R105). -/
def issue (v : Word) (s : State) : Host.Outcome State Fault Refusal :=
  match decode v with
  | .ok i => exec i s
  | .error _ => .next (s.raiseError .illegalCmd)

/-- The exact SRST word written to CMD (R81). -/
def isSrst (off : Offset) (v : Word) : Bool := off == 0x000#12 && v == 0x00000000000000FF#64

/-- `BusWrite(off, v)` (R81), its checks in the order of 60_exceptions.md R266. While RST_N is low it is ignored
(R300). -/
def busWrite (off : Offset) (v : Word) (s : State) : Host.Outcome State Fault Refusal :=
  if s.rstN = false then .next s
  else if isSrst off v then exec .srst s
  else if s.err then .next s
  else
    match Reg.ofOffset off with
    | none => .next (s.raiseError .badAccess)
    | some r =>
      if r.writable = false then .next (s.raiseError .badAccess)
      else if s.busy then .next (s.raiseError .busyWrite)
      else if r = .cmd then issue v s
      else .next (s.writeReg v r)

/-- The RST_N input is driven (R300): at a low level the core is reset and held; the release changes nothing else. -/
def driveRstN (level : Bool) (s : State) : State :=
  if level then { s with rstN := true } else { s.resetCore with rstN := false }

end Sys2Proof.Machine
end

