-- ==== Sys2Proof/Machine/HostProgram.lean ====
section
/-! DEFINITION. The host's side of the interface: one host event (30_encoding.md R107; 20_memory.md R84, R85, R93), and
the host program's statements and pseudo-operations (R107, R108). -/

namespace Sys2Proof.Machine

/-- `RD`: the value read is an observation (R107). -/
def hostRead (off : Offset) (s : State) : State :=
  let r := busRead off s
  { r.2 with reads := r.2.reads ++ [r.1] }

/-- One `WAIT`: read STATUS; while bit 0 is 1 the core gets a turn and the host polls again (R107; assumption log 10). -/
def hostWait (s : State) : State :=
  let t := hostRead Reg.status.offset s
  if (busRead Reg.status.offset s).1.getLsbD 0 then { t with pending := .core :: .wait :: t.pending } else t

/-- `IN`: bytes appended to the input stream (R84, R107). After the end mark they have no meaning
(assumption log 14). -/
def hostInput (bs : List Byte) (s : State) : Host.Outcome State Fault Refusal :=
  if s.inEnd then .fault .inputAfterEnd else .next { s with input := s.input ++ bs }

/-- New streams are attached (R93; 95_test_vectors.md P3): both empty, nothing marked or reported. Not while a stream
command runs (assumption log 14). -/
def hostAttach (s : State) : Host.Outcome State Fault Refusal :=
  if s.busy then .fault .attachWhileBusy
  else .next { s with input := [], inPtr := 0, inEnd := false, inFail := false, output := [], outFail := none }

/-- The host begins, or stops, accepting output writes (R85). An acceptance of the write request that stands is not
taken back: an enabled stream step stays enabled (R86; assumption log 11). -/
def hostReady (ready : Bool) (s : State) : State :=
  { s with outReady := ready || (s.busy && s.sPend && s.outReady) }

/-- What one host event does. -/
def hostEvent (e : HostEvent) (s : State) : Host.Outcome State Fault Refusal :=
  match e with
  | .rd off => .next (hostRead off s)
  | .wr off v => busWrite off v s
  | .wait => .next (hostWait s)
  | .inBytes bs => hostInput bs s
  | .eos => .next { s with inEnd := true }
  | .core => .next s.coreTurn
  | .outReady b => .next (hostReady b s)
  | .failIn => .next { s with inFail := true }
  | .failOut m => .next { s with outFail := some m }
  | .attach => hostAttach s
  | .rstN level => .next (driveRstN level s)

/-- `WR <reg>, <imm64>` (R107). -/
def stmtWR (r : Reg) (v : Word) : HostEvent := .wr r.offset v

/-- `RD <reg>` (R107). -/
def stmtRD (r : Reg) : HostEvent := .rd r.offset

/-- `CMD <mnemonic>` (R107): a write of the command's word to CMD. -/
def stmtCMD (i : Instr) : HostEvent := .wr Reg.cmd.offset (encode i)

/-- `LDKEY k0, k1` (R108). -/
def pseudoLDKEY (k0 k1 : Word) : List HostEvent := [stmtWR .key0 k0, stmtWR .key1 k1]

/-- `LDBLK x, y` (R108). -/
def pseudoLDBLK (x y : Word) : List HostEvent := [stmtWR .x x, stmtWR .y y]

/-- `ENCRYPT` (R108). -/
def pseudoENCRYPT : List HostEvent := [stmtCMD .ksExp, stmtCMD .blkEncPre]

/-- `DECRYPT` (R108). -/
def pseudoDECRYPT : List HostEvent := [stmtCMD .ksExp, stmtCMD .blkDecPre]

/-- `STREAM <mnemonic>` (R108). -/
def pseudoSTREAM (i : Instr) : List HostEvent := [stmtCMD i, .wait]

/-- `RDBLK` (R108). -/
def pseudoRDBLK : List HostEvent := [stmtRD .x, stmtRD .y]

/-- Where the host's bus shows the register at offset `off` (20_memory.md R83). The core never sees it. -/
def busAddress (off : Offset) : Nat := Config.base + off.toNat

end Sys2Proof.Machine
end

