-- ==== Sys2Proof/Machine/Step.lean ====
section
/-! DEFINITION. One transition (20_memory.md R86). -/

namespace Sys2Proof.Machine

/-- The host's next event; with none pending, the core's stream step if one is enabled, else nothing moves
(assumption log 8, 9). -/
def step (s : State) : Host.Outcome State Fault Refusal :=
  match s.pending with
  | [] => .next s.coreTurn
  | e :: rest => hostEvent e { s with pending := rest }

/-- The core fetches nothing (10_state.md R32): an instruction reaches it as a host write of its word to CMD, so that
write becomes the host's next event. Bits from `nbits` up are 0. Assumption log 8. -/
def State.withFetchWord (s : State) (nbits w : Nat) : State :=
  { s with pending := .wr Reg.cmd.offset (BitVec.ofNat 64 (w % 2 ^ nbits)) :: s.pending }

end Sys2Proof.Machine
end

