-- ==== Sys2Proof/Safety.lean ====
section
/-! DEFINITION. The terms claims are stated in: runs, the invariant of the machine, and the cipher's effect on a byte
stream as one function of the bytes. -/

namespace Sys2Proof.Machine

/-- `n` transitions one after another; it ends at the first fault or refusal. -/
def runSteps : Nat → State → Host.Outcome State Fault Refusal
  | 0, s => .next s
  | n + 1, s =>
    match step s with
    | .next t => runSteps n t
    | .fault f => .fault f
    | .refused r => .refused r

/-- The core is free to take a command: out of reset, not busy, not in the error state (30_encoding.md R101). -/
def State.idle (s : State) : Prop := s.rstN = true ∧ s.busy = false ∧ s.err = false

/-- The next transition is the core's turn, after which the host's events are `rest`: the host's next event gives it the
turn, or the host has no event pending (20_memory.md R86; assumption log 9). -/
abbrev State.coreNext (s : State) (rest : List HostEvent) : Prop :=
  (s.pending = [] ∧ rest = []) ∨ s.pending = .core :: rest

/-- The next transition is a reset: the host drives RST_N low, or writes the exact SRST word to CMD while RST_N is high
(70_reset_and_hazards.md R300). -/
def State.resets (s : State) : Prop :=
  (∃ rest, s.pending = .rstN false :: rest) ∨
  (s.rstN = true ∧ ∃ rest, s.pending = .wr 0x000#12 0x00000000000000FF#64 :: rest)

/-- `t` is `s` after a reset (10_state.md R55): control bits 0, data registers unwritten, no pending block, and the
host's side as it was (R51). -/
structure State.ResetFrom (s t : State) : Prop where
  status : t.busy = false ∧ t.kv0 = false ∧ t.kv1 = false ∧ t.schedValid = false ∧ t.err = false ∧
    t.errCode = .noError
  unwritten : ∀ r : Reg, r ≠ .cmd → r ≠ .status → t.written r = false
  stream : t.sDir = .enc ∧ t.sKMode = .pre ∧ t.sFinal = false ∧ t.sPend = false ∧ t.inPos = 0
  streams : t.input = s.input ∧ t.inPtr = s.inPtr ∧ t.inEnd = s.inEnd ∧ t.inFail = s.inFail ∧
    t.output = s.output ∧ t.outReady = s.outReady ∧ t.outFail = s.outFail
  outside : t.cfg = s.cfg ∧ t.rstN = s.rstN ∧ t.pending = s.pending ∧ t.reads = s.reads

/-- The relations between fields that every transition keeps (10_state.md R38, R41 to R44, R49; 43_stream_driver.md
R203, R209; 70_reset_and_hazards.md R300). -/
structure State.Inv (s : State) : Prop where
  /-- The host's read position lies in what it has supplied (20_memory.md R84). -/
  readPosition : s.inPtr ≤ s.input.length
  /-- ERRCODE is 0 exactly while ERR is 0 (60_exceptions.md R261). -/
  errorCode : s.err = true ↔ s.errCode ≠ .noError
  /-- SCHED_VALID = 1: both key words and RK are written and RK = expand(K0, K1) (10_state.md R38). -/
  schedule : s.schedValid = true →
    s.kv0 = true ∧ s.kv1 = true ∧ s.rkWritten = true ∧ s.rk = expand s.k0 s.k1
  /-- A stream runs only with a key, outside the error state and out of reset (R41, R201). -/
  running : s.busy = true → s.kv0 = true ∧ s.kv1 = true ∧ s.err = false ∧ s.rstN = true
  /-- A precomputed stream has its schedule (43_stream_driver.md R202). -/
  runningPre : s.busy = true → s.sKMode = .pre → s.schedValid = true
  /-- An output block is pending only inside a stream (60_exceptions.md R263). -/
  pendingBlock : s.sPend = true → s.busy = true
  /-- After a short chunk the core never reads again (43_stream_driver.md R209). -/
  noReadAfterShort : s.busy = true → s.sFinal = true → s.sPend = true
  /-- Chunk k covers input bytes 16k to 16k + 15 (20_memory.md R76). -/
  chunkAligned : s.busy = true → s.sFinal = false → s.inPos % 16 = 0
  /-- What a stream has consumed lies before the read position. -/
  consumed : s.busy = true → s.inPos ≤ s.inPtr
  /-- While RST_N is low the core stands as reset left it (70_reset_and_hazards.md R300). -/
  heldInReset : s.rstN = false →
    s.kv0 = false ∧ s.kv1 = false ∧ s.schedValid = false ∧ s.err = false ∧ s.busy = false

/-- The block transform a (DIR, KMODE) pair selects, as a function of the key (43_stream_driver.md R204). -/
def keyTransform (d : Dir) (k : KMode) (k0 k1 : Word) (b : Block) : Block :=
  match d, k with
  | .enc, .pre => enc (expand k0 k1) b
  | .dec, .pre => dec (expand k0 k1) b
  | .enc, .fus => encFused k0 k1 b
  | .dec, .fus => decFused k0 k1 b

/-- The stream command of a (DIR, KMODE) pair (30_encoding.md R103). -/
def streamInstr (d : Dir) (k : KMode) : Instr := decodeStr k d

/-- The output of one chunk of 1 to 16 bytes: zero-filled, transformed, laid out again (43_stream_driver.md R200). -/
def chunkOut (f : Block → Block) (bo : ByteOrder) (c : List Byte) : List Byte :=
  bytesOfBlock bo (f (blockOfChunk bo (zeroFill c)))

/-- The blocks of a byte sequence, each transformed on its own, at most `n` of them. -/
def ecbBlocks (f : Block → Block) (bo : ByteOrder) : Nat → List Byte → List Byte
  | 0, _ => []
  | n + 1, bs => if bs = [] then [] else chunkOut f bo (bs.take 16) ++ ecbBlocks f bo n (bs.drop 16)

/-- The whole byte sequence in independent-block (ECB) mode (00_scope.md R19, 43_stream_driver.md R200). There are no
more blocks than bytes. -/
def ecb (f : Block → Block) (bo : ByteOrder) (bs : List Byte) : List Byte := ecbBlocks f bo bs.length bs

end Sys2Proof.Machine
end

