-- ==== Sys2Proof/Certificates/Slice0/Obligations.lean ====
section
/-! DEFINITION. What is claimed of the model. Each statement's docstring names the rules of spec/ it rests on. A read of
a register is `s.value r`: what the register holds once it is written, a free value before (assumption log 2). Frames
are written as one equation: the state after is the state before but for the fields named. -/

open Sys2Proof Sys2Proof.Machine

/-! ### Encoding (30_encoding.md) -/

/-- One word of every command, written out from R100's fields, decodes to it. -/
def Obligations.DecodeReadsTableWords : Prop :=
  decode (0#56 ++ 0b00000000#8) = .ok .nop ∧
  decode (0#56 ++ 0b00000001#8) = .ok .rndF ∧
  decode (0#56 ++ 0b00000010#8) = .ok .rndI ∧
  decode (0#56 ++ 0b00000011#8) = .ok .ksExp ∧
  decode (0#56 ++ 0b0001#4 ++ 0b00#2 ++ 0b0#1 ++ 0b0#1) = .ok .blkEncPre ∧
  decode (0#56 ++ 0b0001#4 ++ 0b00#2 ++ 0b1#1 ++ 0b1#1) = .ok .blkDecFus ∧
  decode (0#56 ++ 0b0010#4 ++ 0b00#2 ++ 0b0#1 ++ 0b1#1) = .ok .strDecPre ∧
  decode (0#56 ++ 0b0010#4 ++ 0b00#2 ++ 0b1#1 ++ 0b0#1) = .ok .strEncFus ∧
  decode (0#56 ++ 0b11111111#8) = .ok .srst

/-- R104: each command is selected by its full 64-bit value, and by no other word; the values are the table's. -/
def Obligations.DecodeSelectsByFullWord : Prop :=
  (∀ (v : Word) (i : Instr), decode v = .ok i ↔ v = encode i) ∧
  encode .nop = 0x0000000000000000#64 ∧ encode .rndF = 0x0000000000000001#64 ∧
  encode .rndI = 0x0000000000000002#64 ∧ encode .ksExp = 0x0000000000000003#64 ∧
  encode .blkEncPre = 0x0000000000000010#64 ∧ encode .blkDecPre = 0x0000000000000011#64 ∧
  encode .blkEncFus = 0x0000000000000012#64 ∧ encode .blkDecFus = 0x0000000000000013#64 ∧
  encode .strEncPre = 0x0000000000000020#64 ∧ encode .strDecPre = 0x0000000000000021#64 ∧
  encode .strEncFus = 0x0000000000000022#64 ∧ encode .strDecFus = 0x0000000000000023#64 ∧
  encode .srst = 0x00000000000000FF#64

/-- R103: `CLASS << 4 | KMODE << 1 | DIR`, and the strategy each (DIR, KMODE) names in each class. -/
def Obligations.ModeOpcodeLayout : Prop :=
  (∀ (k : KMode) (d : Dir),
    encode (decodeBlk k d) = 0x1#64 <<< 4 ||| zextBit k.toBit <<< 1 ||| zextBit d.toBit ∧
    encode (decodeStr k d) = 0x2#64 <<< 4 ||| zextBit k.toBit <<< 1 ||| zextBit d.toBit) ∧
  (KMode.pre.toBit = false ∧ KMode.fus.toBit = true ∧ Dir.enc.toBit = false ∧ Dir.dec.toBit = true) ∧
  (decodeBlk .pre .enc = .blkEncPre ∧ decodeBlk .pre .dec = .blkDecPre ∧
    decodeBlk .fus .enc = .blkEncFus ∧ decodeBlk .fus .dec = .blkDecFus) ∧
  (decodeStr .pre .enc = .strEncPre ∧ decodeStr .pre .dec = .strDecPre ∧
    decodeStr .fus .enc = .strEncFus ∧ decodeStr .fus .dec = .strDecFus)

/-- R105: with ERR = 0 and BUSY = 0, a word that is no command raises ILLEGAL_CMD and has no other effect (error entry
itself drops a pending block, R263). -/
def Obligations.IllegalWordRaisesOnlyIllegalCmd : Prop :=
  ∀ (s : State) (v : Word) (rest : List HostEvent), s.idle → s.pending = .wr 0x000#12 v :: rest →
    (∀ i : Instr, v ≠ encode i) →
    step s = .next { s with pending := rest, err := true, errCode := .illegalCmd, sPend := false }

/-- R81, R101: a host write of a command's word to CMD runs that command, on the state with the write taken off the
host's program: SRST whenever RST_N is high, every other command when also ERR = 0 and BUSY = 0. -/
def Obligations.StepRunsIssuedCommand : Prop :=
  ∀ (s : State) (v : Word) (i : Instr) (rest : List HostEvent), s.pending = .wr 0x000#12 v :: rest →
    decode v = .ok i → s.rstN = true → (i = .srst ∨ s.idle) →
    step s = exec i { s with pending := rest }

/-! ### Round function (40_round_function.md) -/

/-- R131, R132: the closed forms of the rounds, with the bit-vector library's own rotations. -/
def Obligations.RoundFunctionClosedForm : Prop :=
  ∀ (b : Block) (k : Word),
    (roundF b k).x = (b.x.rotateRight 8 + b.y) ^^^ k ∧
    (roundF b k).y = b.y.rotateLeft 3 ^^^ (roundF b k).x ∧
    (roundI b k).y = (b.y ^^^ b.x).rotateRight 3 ∧
    (roundI b k).x = ((b.x ^^^ k) - (roundI b k).y).rotateLeft 8

/-- R133: the two rounds are inverses of each other, both ways, for every block and key. -/
def Obligations.RoundsInvertEachOther : Prop :=
  ∀ (b : Block) (k : Word), roundI (roundF b k) k = b ∧ roundF (roundI b k) k = b

/-- R136: rotations never lose bits, at every amount R16 allows. -/
def Obligations.RotationsLoseNoBits : Prop :=
  ∀ (v : Word) (n : Nat), 0 < n → n < 64 → rotl64 (rotr64 v n) n = v ∧ rotr64 (rotl64 v n) n = v

/-- R134, R135: RND_F and RND_I complete in every state; X and Y take the closed form of what X, Y and RKIN read as;
nothing else changes. The value of an unwritten one is free (THE MODEL'S CHOICE, assumption log 2). -/
def Obligations.SingleRoundCommandsComplete : Prop :=
  ∀ s : State,
    (∃ t, exec .rndF s = .next t ∧
      t.x = ((s.value .x).rotateRight 8 + s.value .y) ^^^ s.value .rkin ∧
      t.y = (s.value .y).rotateLeft 3 ^^^ t.x ∧
      t = { s with x := t.x, y := t.y, xWritten := true, yWritten := true, draw := t.draw }) ∧
    (∃ t, exec .rndI s = .next t ∧
      t.y = (s.value .y ^^^ s.value .x).rotateRight 3 ∧
      t.x = ((s.value .x ^^^ s.value .rkin) - t.y).rotateLeft 8 ∧
      t = { s with x := t.x, y := t.y, xWritten := true, yWritten := true, draw := t.draw })

/-- R135: RND_F followed by RND_I with RKIN unchanged restores X and Y exactly. Where X or Y is unwritten, that the
commands go on, and that what is restored is the free value RND_F read, is THE MODEL'S CHOICE (assumption log 2). -/
def Obligations.RndIUndoesRndF : Prop :=
  ∀ s : State, s.rkinWritten = true →
    ∃ t u, exec .rndF s = .next t ∧ exec .rndI t = .next u ∧ u.x = s.value .x ∧ u.y = s.value .y

/-! ### Key schedule (41_key_schedule.md) -/

/-- R151: there is a running pair, started at (K0, K1), whose `a` is recorded as round key i and which then advances by
one forward round with b in the x position, a in the y position and i as the key. -/
def Obligations.ExpandRecordsThenAdvances : Prop :=
  ∀ k0 k1 : Word, ∃ p : Nat → KeyPair, p 0 = ⟨k0, k1⟩ ∧
    ∀ i : Fin 32, (expand k0 k1)[i.val] = (p i.val).a ∧
      (p (i.val + 1)).b = ((p i.val).b.rotateRight 8 + (p i.val).a) ^^^ BitVec.ofNat 64 i.val ∧
      (p (i.val + 1)).a = (p i.val).a.rotateLeft 3 ^^^ (p (i.val + 1)).b

/-- R152: with both key words written, KS_EXP completes: RK = expand(K0, K1), SCHED_VALID = 1, nothing else changes. -/
def Obligations.KsExpCompletes : Prop :=
  ∀ s : State, s.kv0 = true → s.kv1 = true →
    exec .ksExp s = .next { s with rk := expand s.k0 s.k1, rkWritten := true, schedValid := true }

/-! ### Block cipher (42_block_cipher.md) -/

/-- R171, R173: Enc is 32 forward rounds with rk[0] to rk[31] in that order; Dec is 32 inverse rounds with rk[31] down to
rk[0]. -/
def Obligations.BlockTransformsRunRoundsInOrder : Prop :=
  ∀ (rk : Vector Word 32) (b : Block),
    (∃ p : Nat → Block, p 0 = b ∧ (∀ i : Fin 32, p (i.val + 1) = roundF (p i.val) rk[i.val]) ∧ enc rk b = p 32) ∧
    (∃ q : Nat → Block, q 32 = b ∧ (∀ i : Fin 32, q i.val = roundI (q (i.val + 1)) rk[i.val]) ∧ dec rk b = q 0)

/-- R179 item 1: decryption undoes encryption under the same round keys, and encryption decryption. -/
def Obligations.BlockDecryptionUndoesEncryption : Prop :=
  ∀ (rk : Vector Word 32) (b : Block), dec rk (enc rk b) = b ∧ enc rk (dec rk b) = b

/-- R175, R177, R179 item 2: the fused transforms agree with the precomputed ones for every key and block. -/
def Obligations.FusedAgreesWithPrecomputed : Prop :=
  ∀ (k0 k1 : Word) (b : Block),
    encFused k0 k1 b = enc (expand k0 k1) b ∧ decFused k0 k1 b = dec (expand k0 k1) b

/-- R179 item 4 (95_test_vectors.md E1): the published reference vector, in both modes and both directions. -/
def Obligations.ReferenceVectorConforms : Prop :=
  let k0 := 0x0706050403020100#64
  let k1 := 0x0f0e0d0c0b0a0908#64
  let p : Block := ⟨0x6c61766975716520#64, 0x7469206564616d20#64⟩
  let c : Block := ⟨0xa65d985179783265#64, 0x7860fedf5c570d18#64⟩
  enc (expand k0 k1) p = c ∧ dec (expand k0 k1) c = p ∧ encFused k0 k1 p = c ∧ decFused k0 k1 c = p

/-- R170, R172, R174: with SCHED_VALID = 1 the precomputed block commands complete: X and Y take the transform of what
they read as under the RK table; nothing else changes. The value of an unwritten one is free (THE MODEL'S CHOICE,
assumption log 2). -/
def Obligations.PrecomputedBlockCommandsComplete : Prop :=
  ∀ s : State, s.schedValid = true →
    (∃ t, exec .blkEncPre s = .next t ∧ Block.mk t.x t.y = enc s.rk ⟨s.value .x, s.value .y⟩ ∧
      t = { s with x := t.x, y := t.y, xWritten := true, yWritten := true, draw := t.draw }) ∧
    (∃ t, exec .blkDecPre s = .next t ∧ Block.mk t.x t.y = dec s.rk ⟨s.value .x, s.value .y⟩ ∧
      t = { s with x := t.x, y := t.y, xWritten := true, yWritten := true, draw := t.draw })

/-- R170, R176, R178: with both key words written the fused block commands complete: X and Y take the transform of what
they read as under (K0, K1); beside them only hidden state changes, so RK and SCHED_VALID stay. The value of an
unwritten X or Y is free (THE MODEL'S CHOICE, assumption log 2). -/
def Obligations.FusedBlockCommandsComplete : Prop :=
  ∀ s : State, s.kv0 = true → s.kv1 = true →
    (∃ t, exec .blkEncFus s = .next t ∧ Block.mk t.x t.y = encFused s.k0 s.k1 ⟨s.value .x, s.value .y⟩ ∧
      t = { s with x := t.x, y := t.y, xWritten := true, yWritten := true
                   ka := t.ka, kb := t.kb, roundIdx := t.roundIdx, draw := t.draw }) ∧
    (∃ t, exec .blkDecFus s = .next t ∧ Block.mk t.x t.y = decFused s.k0 s.k1 ⟨s.value .x, s.value .y⟩ ∧
      t.srk = expand s.k0 s.k1 ∧
      t = { s with x := t.x, y := t.y, xWritten := true, yWritten := true
                   ka := t.ka, kb := t.kb, roundIdx := t.roundIdx, srk := t.srk, draw := t.draw })

/-- R176, R178: the fused command's result equals the precomputed command's after KS_EXP for the same key. Where X or Y is
unwritten this is THE MODEL'S CHOICE: both commands see one free value, since KS_EXP uses up no draw (assumption log 2, 5;
R53 lets two reads differ). -/
def Obligations.FusedCommandMatchesKsExpThenPrecomputed : Prop :=
  ∀ s : State, s.kv0 = true → s.kv1 = true →
    ∃ t e e' d d', exec .ksExp s = .next t ∧
      exec .blkEncPre t = .next e ∧ exec .blkEncFus s = .next e' ∧ e.x = e'.x ∧ e.y = e'.y ∧
      exec .blkDecPre t = .next d ∧ exec .blkDecFus s = .next d' ∧ d.x = d'.x ∧ d.y = d'.y

/-- R201, R261, R263: a command that needs the key raises NO_KEY while a key word is unwritten, and changes nothing but
what error entry names. -/
def Obligations.NoKeyIsRaised : Prop :=
  ∀ (s : State) (i : Instr),
    i ∈ [.ksExp, .blkEncFus, .blkDecFus, .strEncPre, .strDecPre, .strEncFus, .strDecFus] →
    (s.kv0 = false ∨ s.kv1 = false) → s.err = false →
    exec i s = .next { s with err := true, errCode := .noKey, busy := false, sPend := false }

/-- R172, R174, R261, R263: a precomputed block command raises NO_SCHED while SCHED_VALID = 0. -/
def Obligations.NoSchedIsRaised : Prop :=
  ∀ (s : State) (i : Instr), i ∈ [.blkEncPre, .blkDecPre] → s.schedValid = false → s.err = false →
    exec i s = .next { s with err := true, errCode := .noSched, busy := false, sPend := false }

/-! ### Control commands and reset (44_control.md, 70_reset_and_hazards.md) -/

/-- R240: NOP completes in every state and changes nothing; written by the host to a free core it changes nothing but
the host's program. -/
def Obligations.NopChangesNothing : Prop :=
  (∀ s : State, exec .nop s = .next s) ∧
  (∀ (s : State) (rest : List HostEvent), s.idle → s.pending = .wr 0x000#12 0x0000000000000000#64 :: rest →
    step s = .next { s with pending := rest })

/-- R242: SRST completes in every state, the error state and a running stream among them, and does what reset does. That
a reported port failure and the record of reads outlive the reset (`ResetFrom.streams`, `outside`) is THE MODEL'S CHOICE
(assumption log 12, 18). -/
def Obligations.SrstResetsInEveryState : Prop :=
  (∀ s : State, ∃ t, exec .srst s = .next t ∧ s.ResetFrom t) ∧
  (∀ (s : State) (rest : List HostEvent), s.rstN = true →
    s.pending = .wr 0x000#12 0x00000000000000FF#64 :: rest →
    ∃ t, step s = .next t ∧ ({ s with pending := rest } : State).ResetFrom t)

/-- R300: RST_N driven low resets the core, whatever it does; while it is low reads return 0 and writes are ignored;
its release changes nothing else. That the pin is a level, and that a reported port failure and the record of reads
outlive the reset, is THE MODEL'S CHOICE (assumption log 17, 12, 18). -/
def Obligations.RstNResetsAndHolds : Prop :=
  (∀ (s : State) (rest : List HostEvent), s.pending = .rstN false :: rest →
    ∃ t, step s = .next t ∧ ({ s with pending := rest, rstN := false } : State).ResetFrom t) ∧
  (∀ (s : State) (off : Offset) (v : Word), s.rstN = false →
    busRead off s = (0#64, s) ∧ busWrite off v s = .next s) ∧
  (∀ (s : State) (rest : List HostEvent), s.pending = .rstN true :: rest →
    step s = .next { s with pending := rest, rstN := true })

/-- R55, R301: the state right after reset: STATUS reads 0, the data registers are unwritten, the stream latches are 0. -/
def Obligations.ResetStateIsTheSpecs : Prop :=
  State.reset.ResetFrom State.reset ∧ State.reset.idle ∧ busRead 0x008#12 State.reset = (0#64, State.reset)

/-! ### Stream driver (43_stream_driver.md) -/

/-- R201, R202, R210, R211: with the key written, the precomputed stream commands complete their start: RK expanded,
the mode latched, BUSY = 1, no stream byte moved, nothing else changed. -/
def Obligations.PrecomputedStreamStartCompletes : Prop :=
  ∀ (s : State) (i : Instr) (d : Dir), (i, d) ∈ [(Instr.strEncPre, Dir.enc), (Instr.strDecPre, Dir.dec)] →
    s.kv0 = true → s.kv1 = true →
    exec i s = .next { s with
      rk := expand s.k0 s.k1, rkWritten := true, schedValid := true, busy := true
      sDir := d, sKMode := .pre, sFinal := false, sPend := false, inPos := 0 }

/-- R201, R202, R212, R213: with the key written, the fused stream commands complete their start; RK and SCHED_VALID
are unchanged. -/
def Obligations.FusedStreamStartCompletes : Prop :=
  ∀ (s : State) (i : Instr) (d : Dir), (i, d) ∈ [(Instr.strEncFus, Dir.enc), (Instr.strDecFus, Dir.dec)] →
    s.kv0 = true → s.kv1 = true →
    exec i s = .next { s with
      busy := true, sDir := d, sKMode := .fus, sFinal := false, sPend := false, inPos := 0 }

/-- R203, R204, R206: on the core's turn, a read phase that gets 1 to 16 bytes consumes them, holds the transform of the
zero-filled chunk in OB and marks a short chunk final; X, Y, RK, STATUS and the output stay. -/
def Obligations.ReadPhaseHoldsTransformedChunk : Prop :=
  ∀ (s : State) (rest : List HostEvent) (c : List Byte), s.coreNext rest →
    s.busy = true → s.err = false → s.sPend = false → s.inFail = false →
    (16 ≤ s.unread.length ∨ s.inEnd = true) → c = s.unread.take 16 → c ≠ [] →
    ∃ t b, step s = .next t ∧ b = blockOfChunk s.cfg.byteOrder (c ++ List.replicate (16 - c.length) 0#8) ∧
      (s.sDir = .enc → s.sKMode = .pre → t.ob = enc s.rk b) ∧
      (s.sDir = .dec → s.sKMode = .pre → t.ob = dec s.rk b) ∧
      (s.sDir = .enc → s.sKMode = .fus → t.ob = encFused s.k0 s.k1 b) ∧
      (s.sDir = .dec → s.sKMode = .fus → t.ob = decFused s.k0 s.k1 b) ∧
      t = { s with
        ob := t.ob, sPend := true, sFinal := s.sFinal || decide (c.length < 16)
        inPtr := s.inPtr + c.length, inPos := s.inPos + c.length
        ka := t.ka, kb := t.kb, roundIdx := t.roundIdx, srk := t.srk, draw := t.draw
        pending := rest }

/-- R205: on the core's turn, a read phase that gets zero bytes ends the command: no block, X and Y unchanged, no error. -/
def Obligations.EmptyReadEndsStream : Prop :=
  ∀ (s : State) (rest : List HostEvent), s.coreNext rest →
    s.busy = true → s.err = false → s.sPend = false → s.inFail = false → s.inEnd = true → s.unread = [] →
    step s = .next { s with busy := false, pending := rest }

/-- R203, R208, R209: on the core's turn, an accepted write phase appends the 16 bytes of the pending block, shows the
block in X and Y, and ends the command exactly when the chunk was the final one. -/
def Obligations.AcceptedWritePhaseCompletes : Prop :=
  ∀ (s : State) (rest : List HostEvent), s.coreNext rest →
    s.busy = true → s.err = false → s.sPend = true → s.outFail = none → s.outReady = true →
    step s = .next { s with
      output := s.output ++ bytesOfBlock s.cfg.byteOrder s.ob
      x := s.ob.x, y := s.ob.y, xWritten := true, yWritten := true, sPend := false, busy := !s.sFinal
      pending := rest }

/-- R85, R208, R218, R261, R263: on the core's turn, a failed read raises IN_ERR and consumes nothing; a failed write
appends the first m bytes of the block, for whichever m in 0..16 the host reports, shows the block in X and Y and raises
OUT_ERR. That the report is a flag used up by one request is THE MODEL'S CHOICE (assumption log 12, 13). -/
def Obligations.PortFailureAbortsStream : Prop :=
  (∀ (s : State) (rest : List HostEvent), s.coreNext rest →
    s.busy = true → s.err = false → s.sPend = false → s.inFail = true →
    step s = .next { s with
      inFail := false, err := true, errCode := .inErr, busy := false, sPend := false, pending := rest }) ∧
  (∀ (s : State) (rest : List HostEvent) (m : Fin 17), s.coreNext rest →
    s.busy = true → s.err = false → s.sPend = true → s.outFail = some m →
    step s = .next { s with
      output := s.output ++ (bytesOfBlock s.cfg.byteOrder s.ob).take m.val, outFail := none
      x := s.ob.x, y := s.ob.y, xWritten := true, yWritten := true
      err := true, errCode := .outErr, busy := false, sPend := false, pending := rest })

/-- R30, R84, R85, R264: on its turn the core is held while its port request cannot be answered, and it has no step while
BUSY = 0 or ERR = 1: nothing of it changes. -/
def Obligations.StreamIsHeldWithoutAnswer : Prop :=
  ∀ (s : State) (rest : List HostEvent), s.coreNext rest →
    (s.busy = false ∨ s.err = true ∨
      (s.sPend = false ∧ s.inFail = false ∧ s.unread.length < 16 ∧ s.inEnd = false) ∨
      (s.sPend = true ∧ s.outFail = none ∧ s.outReady = false)) →
    step s = .next { s with pending := rest }

/-- R200, R204, R208: a stream command issued to a free core with the key written, on an input whose end is marked and
an output the host accepts, runs to its end without error, having appended the ECB transform of the unread input; X and
Y then hold the last block written, or their earlier values if there was none. -/
def Obligations.StreamCommandComputesEcb : Prop :=
  ∀ (s : State) (d : Dir) (k : KMode), s.idle → s.kv0 = true → s.kv1 = true →
    s.pending = [stmtCMD (streamInstr d k)] →
    s.inEnd = true → s.inFail = false → s.outReady = true → s.outFail = none →
    ∃ n t, runSteps n s = .next t ∧ t.pending = [] ∧ t.busy = false ∧ t.err = false ∧ t.unread = [] ∧
      t.output = s.output ++ ecb (keyTransform d k s.k0 s.k1) s.cfg.byteOrder s.unread ∧
      (s.unread = [] → t.x = s.x ∧ t.y = s.y) ∧
      (s.unread ≠ [] → ∃ o, t.output = o ++ bytesOfBlock s.cfg.byteOrder ⟨t.x, t.y⟩)

/-- R214: such a command on L unread bytes appends exactly 16 · ceil(L / 16) bytes. -/
def Obligations.StreamOutputLength : Prop :=
  ∀ (s : State) (d : Dir) (k : KMode), s.idle → s.kv0 = true → s.kv1 = true →
    s.pending = [stmtCMD (streamInstr d k)] →
    s.inEnd = true → s.inFail = false → s.outReady = true → s.outFail = none →
    ∃ n t, runSteps n s = .next t ∧ t.pending = [] ∧ t.busy = false ∧ t.err = false ∧
      t.output.length = s.output.length + 16 * ((s.unread.length + 15) / 16)

/-- R215: encrypting P with any STR_ENC_* command, then decrypting the output with any STR_DEC_* command under the same
key, gives P followed by (16 − L mod 16) mod 16 zero bytes. -/
def Obligations.StreamRoundTripReturnsPaddedInput : Prop :=
  ∀ (s : State) (p : List Byte) (ke kd : KMode), s.idle → s.kv0 = true → s.kv1 = true → s.outReady = true →
    s.pending = [.attach, .inBytes p, .eos, stmtCMD (streamInstr .enc ke)] →
    ∃ n t, runSteps n s = .next t ∧ t.pending = [] ∧ t.busy = false ∧ t.err = false ∧
      ∃ m u, runSteps m
          { t with pending := [.attach, .inBytes t.output, .eos, stmtCMD (streamInstr .dec kd)] } = .next u ∧
        u.pending = [] ∧ u.busy = false ∧ u.err = false ∧
        u.output = p ++ List.replicate ((16 - p.length % 16) % 16) 0#8

/-- R217: what a stream command appends is a function of its input bytes, for each direction, key and byte order and
nothing else of the state (one function for both key modes); a whole number of chunks is transformed as if what follows
stood alone, so equal chunks give equal blocks; and a short chunk counts as its zero-filled form. -/
def Obligations.EcbBlocksAreIndependent : Prop :=
  ∀ (d : Dir) (k0 k1 : Word) (bo : ByteOrder), ∃ out : List Byte → List Byte,
    (∀ (s : State) (k : KMode), s.idle → s.kv0 = true → s.kv1 = true → s.k0 = k0 → s.k1 = k1 →
      s.cfg.byteOrder = bo → s.pending = [stmtCMD (streamInstr d k)] →
      s.inEnd = true → s.inFail = false → s.outReady = true → s.outFail = none →
      ∃ n t, runSteps n s = .next t ∧ t.pending = [] ∧ t.busy = false ∧ t.err = false ∧
        t.output = s.output ++ out s.unread) ∧
    (∀ a b : List Byte, a.length % 16 = 0 → out (a ++ b) = out a ++ out b) ∧
    (∀ a : List Byte, a ≠ [] → a.length ≤ 16 → out a = out (a ++ List.replicate (16 - a.length) 0#8))

/-- R73: the output bytes of a block, byte by byte in either byte order, and R72 reads the block back from them. -/
def Obligations.BlockBytesLayout : Prop :=
  (∀ (b : Block) (j : Fin 8),
    (bytesOfBlock .le b)[j.val]? = some (b.y.extractLsb' (8 * j.val) 8) ∧
    (bytesOfBlock .le b)[8 + j.val]? = some (b.x.extractLsb' (8 * j.val) 8) ∧
    (bytesOfBlock .be b)[j.val]? = some (b.y.extractLsb' (56 - 8 * j.val) 8) ∧
    (bytesOfBlock .be b)[8 + j.val]? = some (b.x.extractLsb' (56 - 8 * j.val) 8)) ∧
  (∀ (bo : ByteOrder) (b : Block), (bytesOfBlock bo b).length = 16 ∧ blockOfChunk bo (bytesOfBlock bo b) = b)

/-- R72: byte j of each word of a 16-byte chunk, which is what the sums `Σ c[j]·2^(8j)` (LE) and `Σ c[j]·2^(8(7-j))`
(BE) say; the first eight bytes of the chunk are y. -/
def Obligations.ChunkWordsLayout : Prop :=
  ∀ (c : List Byte) (j : Fin 8), c.length = 16 →
    (blockOfChunk .le c).y.extractLsb' (8 * j.val) 8 = c.getD j.val 0#8 ∧
    (blockOfChunk .le c).x.extractLsb' (8 * j.val) 8 = c.getD (8 + j.val) 0#8 ∧
    (blockOfChunk .be c).y.extractLsb' (56 - 8 * j.val) 8 = c.getD j.val 0#8 ∧
    (blockOfChunk .be c).x.extractLsb' (56 - 8 * j.val) 8 = c.getD (8 + j.val) 0#8

/-! ### The register bus (20_memory.md) -/

/-- R40, R261: where each STATUS field stands, the number of each error code in ERRCODE, and that the reserved bits read
0. -/
def Obligations.StatusFieldLayout : Prop :=
  ∀ s : State,
    s.statusWord.getLsbD 0 = s.busy ∧ s.statusWord.getLsbD 1 = s.kv0 ∧ s.statusWord.getLsbD 2 = s.kv1 ∧
    s.statusWord.getLsbD 3 = s.schedValid ∧ s.statusWord.getLsbD 4 = s.err ∧
    s.statusWord.extractLsb' 5 3 = 0#3 ∧ s.statusWord.extractLsb' 12 52 = 0#52 ∧
    (s.errCode = .noError → s.statusWord.extractLsb' 8 4 = 0#4) ∧
    (s.errCode = .illegalCmd → s.statusWord.extractLsb' 8 4 = 1#4) ∧
    (s.errCode = .noKey → s.statusWord.extractLsb' 8 4 = 2#4) ∧
    (s.errCode = .noSched → s.statusWord.extractLsb' 8 4 = 3#4) ∧
    (s.errCode = .badAccess → s.statusWord.extractLsb' 8 4 = 4#4) ∧
    (s.errCode = .busyWrite → s.statusWord.extractLsb' 8 4 = 5#4) ∧
    (s.errCode = .inErr → s.statusWord.extractLsb' 8 4 = 6#4) ∧
    (s.errCode = .outErr → s.statusWord.extractLsb' 8 4 = 7#4)

/-- R84, R85, R86, R93, R107: what each host event does. A host read is one BusRead, whose value the host keeps; a host
write is one BusWrite; a WAIT reads STATUS and, while BUSY = 1, comes again after a turn of the core (that turn is THE
MODEL'S CHOICE, assumption log 10). On the host's side of the stream ports: bytes are appended to the input; the end is
marked; new empty streams are attached; acceptance of output writes is switched, but an acceptance of the write request
that stands is not taken back (assumption log 11); a failure is reported (assumption log 12, 13). Attaching streams while
BUSY = 1 and supplying bytes after the end mark stop the model (assumption log 14). -/
def Obligations.HostEventsAreSteps : Prop :=
  ∀ (s : State) (rest : List HostEvent),
    (∀ off : Offset, s.pending = .rd off :: rest →
      ∃ v t, busRead off { s with pending := rest } = (v, t) ∧ step s = .next { t with reads := s.reads ++ [v] }) ∧
    (∀ (off : Offset) (v : Word), s.pending = .wr off v :: rest →
      step s = busWrite off v { s with pending := rest }) ∧
    (s.pending = .wait :: rest → s.rstN = true →
      step s = .next { s with
        reads := s.reads ++ [s.statusWord]
        pending := if s.busy then .core :: .wait :: rest else rest }) ∧
    (∀ bs : List Byte, s.pending = .inBytes bs :: rest →
      (s.inEnd = false → step s = .next { s with input := s.input ++ bs, pending := rest }) ∧
      (s.inEnd = true → step s = .fault .inputAfterEnd)) ∧
    (s.pending = .eos :: rest → step s = .next { s with inEnd := true, pending := rest }) ∧
    (s.pending = .attach :: rest →
      (s.busy = false → step s = .next { s with
        input := [], inPtr := 0, inEnd := false, inFail := false, output := [], outFail := none, pending := rest }) ∧
      (s.busy = true → step s = .fault .attachWhileBusy)) ∧
    (∀ ready : Bool, s.pending = .outReady ready :: rest →
      (s.busy = true ∧ s.sPend = true ∧ s.outReady = true → step s = .next { s with pending := rest }) ∧
      (s.busy = false ∨ s.sPend = false ∨ s.outReady = false →
        step s = .next { s with outReady := ready, pending := rest })) ∧
    (s.pending = .failIn :: rest → step s = .next { s with inFail := true, pending := rest }) ∧
    (∀ m : Fin 17, s.pending = .failOut m :: rest → step s = .next { s with outFail := some m, pending := rest })

/-- R79, R80: a read of a written register at its offset returns it and has no side effect, in every state out of reset
(BUSY = 1 and ERR = 1 among them). -/
def Obligations.GoodReadReturnsRegister : Prop :=
  ∀ s : State, s.rstN = true →
    busRead 0x008#12 s = (s.statusWord, s) ∧
    (s.kv0 = true → busRead 0x010#12 s = (s.k0, s)) ∧
    (s.kv1 = true → busRead 0x018#12 s = (s.k1, s)) ∧
    (s.xWritten = true → busRead 0x020#12 s = (s.x, s)) ∧
    (s.yWritten = true → busRead 0x028#12 s = (s.y, s)) ∧
    (s.rkinWritten = true → busRead 0x030#12 s = (s.rkin, s)) ∧
    (∀ i : Fin 32, s.rkWritten = true → busRead (BitVec.ofNat 12 (0x040 + 8 * i.val)) s = (s.rk[i.val], s))

/-- R53, as THE MODEL'S CHOICE (assumption log 2): a read of an unwritten register goes on and returns the free value of
the current draw; the next read takes another draw, and nothing else changes. -/
def Obligations.UnwrittenReadIsFree : Prop :=
  ∀ (s : State) (r : Reg), s.rstN = true → r ≠ .cmd → s.written r = false →
    busRead r.offset s = (Config.unwritten r.offset s.draw, { s with draw := s.draw + 1 })

/-- R82: with ERR = 0, a read at a misaligned or reserved offset or of CMD returns 0 and raises BAD_ACCESS; a write at a
misaligned or reserved offset, to STATUS or to any RK[i] raises it and changes nothing else. -/
def Obligations.BadAccessIsRaised : Prop :=
  ∀ (s : State) (off : Offset), s.rstN = true → s.err = false →
    (off.toNat % 8 ≠ 0 ∨ off = 0x000#12 ∨ off = 0x038#12 ∨ 0x140 ≤ off.toNat →
      busRead off s =
        (0#64, { s with err := true, errCode := .badAccess, busy := false, sPend := false })) ∧
    (off.toNat % 8 ≠ 0 ∨ off = 0x008#12 ∨ off = 0x038#12 ∨ 0x040 ≤ off.toNat →
      ∀ v : Word, busWrite off v s =
        .next { s with err := true, errCode := .badAccess, busy := false, sPend := false })

/-- R33, R81: what a host write does to each writable data register of a free core. -/
def Obligations.RegisterWritesTakeEffect : Prop :=
  ∀ (s : State) (v : Word), s.idle →
    busWrite 0x010#12 v s = .next { s with k0 := v, kv0 := true, schedValid := false } ∧
    busWrite 0x018#12 v s = .next { s with k1 := v, kv1 := true, schedValid := false } ∧
    busWrite 0x020#12 v s = .next { s with x := v, xWritten := true } ∧
    busWrite 0x028#12 v s = .next { s with y := v, yWritten := true } ∧
    busWrite 0x030#12 v s = .next { s with rkin := v, rkinWritten := true }

/-- R81, R304: while BUSY = 1 a write other than SRST to a writable register raises BUSY_WRITE and aborts the stream; the
register keeps its value. -/
def Obligations.BusyWriteAbortsStream : Prop :=
  ∀ (s : State) (off : Offset) (v : Word), s.rstN = true → s.err = false → s.busy = true →
    off ∈ [0x000#12, 0x010#12, 0x018#12, 0x020#12, 0x028#12, 0x030#12] →
    ¬ (off = 0x000#12 ∧ v = 0x00000000000000FF#64) →
    busWrite off v s = .next { s with err := true, errCode := .busyWrite, busy := false, sPend := false }

/-- R264: in the error state every write but the SRST word is ignored, and a bad read returns 0 and records nothing. -/
def Obligations.ErrorStateIgnoresAccesses : Prop :=
  ∀ (s : State) (off : Offset), s.rstN = true → s.err = true →
    (∀ v : Word, ¬ (off = 0x000#12 ∧ v = 0x00000000000000FF#64) → busWrite off v s = .next s) ∧
    (off.toNat % 8 ≠ 0 ∨ off = 0x000#12 ∨ off = 0x038#12 ∨ 0x140 ≤ off.toNat → busRead off s = (0#64, s))

/-! ### Errors (60_exceptions.md) -/

/-- R44, R263: error entry keeps the first code, ends a running stream, drops a pending block and changes nothing else. -/
def Obligations.FirstErrorIsKept : Prop :=
  ∀ (s : State) (c : ErrCode),
    (s.err = false → s.raiseError c = { s with err := true, errCode := c, busy := false, sPend := false }) ∧
    (s.err = true → s.raiseError c = { s with busy := false, sPend := false })

/-- R44, R264, R265: only a reset leaves the error state; every other transition there leaves the core's whole state,
the error code among it, as it was, and changes the host's side only. -/
def Obligations.OnlyResetLeavesErrorState : Prop :=
  ∀ s t : State, s.err = true → step s = .next t →
    (s.resets ∧ t.err = false ∧ t.errCode = .noError) ∨
    t = { s with
      rstN := t.rstN, input := t.input, inPtr := t.inPtr, inEnd := t.inEnd, inFail := t.inFail
      output := t.output, outReady := t.outReady, outFail := t.outFail
      pending := t.pending, reads := t.reads, draw := t.draw }

/-- No command stops the model: each answers a next state in every state. For RND_* and BLK_* with X, Y or RKIN unwritten
that is THE MODEL'S CHOICE (assumption log 2): R54 says the hardware goes on and asks a model to stop. -/
def Obligations.EveryCommandAnswersNext : Prop :=
  ∀ (i : Instr) (s : State), ∃ t, exec i s = .next t

/-! ### Rules of the whole machine -/

/-- R33, R42, R89, R90: in every transition a key word, its KV bit, and so the key, change only by an accepted host write
to that key register or by a reset. -/
def Obligations.KeysChangeOnlyByHostWrite : Prop :=
  ∀ s t : State, step s = .next t → ¬ s.resets →
    ((t.k0 = s.k0 ∧ t.kv0 = s.kv0) ∨
      ∃ v rest, s.pending = .wr 0x010#12 v :: rest ∧ s.idle ∧ t.k0 = v ∧ t.kv0 = true ∧ t.schedValid = false) ∧
    ((t.k1 = s.k1 ∧ t.kv1 = s.kv1) ∨
      ∃ v rest, s.pending = .wr 0x018#12 v :: rest ∧ s.idle ∧ t.k1 = v ∧ t.kv1 = true ∧ t.schedValid = false)

/-- R37: RK changes only by an expansion, which KS_EXP and the start of STR_ENC_PRE or STR_DEC_PRE make, or by a reset. -/
def Obligations.RkChangesOnlyByExpansion : Prop :=
  ∀ s t : State, step s = .next t → ¬ s.resets →
    t.rk = s.rk ∨
    (∃ i rest, i ∈ [Instr.ksExp, .strEncPre, .strDecPre] ∧ s.pending = .wr 0x000#12 (encode i) :: rest ∧
      s.idle ∧ s.keyValid = true ∧ t.rk = expand s.k0 s.k1 ∧ t.schedValid = true)

/-- R43: nothing but these changes SCHED_VALID: a completed KS_EXP or STR_*_PRE start sets it, an accepted key write or a
reset clears it. -/
def Obligations.SchedValidChangesOnlyAsListed : Prop :=
  ∀ s t : State, step s = .next t → t.schedValid ≠ s.schedValid →
    (t.schedValid = true ∧ s.idle ∧ s.keyValid = true ∧ ∃ i rest, i ∈ [Instr.ksExp, .strEncPre, .strDecPre] ∧
      s.pending = .wr 0x000#12 (encode i) :: rest) ∨
    (t.schedValid = false ∧ (s.resets ∨ (s.idle ∧ ∃ v rest,
      s.pending = .wr 0x010#12 v :: rest ∨ s.pending = .wr 0x018#12 v :: rest)))

/-- The machine's invariant holds right after reset. -/
def Obligations.InvariantHoldsAtReset : Prop := State.reset.Inv

/-- Every transition keeps the machine's invariant, from every state that meets it (R38, R41 to R44, R49, R76, R84,
R201 to R209, R263, R300). The clauses chunkAligned and consumed rest on the count of consumed bytes starting again with
each stream (assumption log 15), heldInReset on the pin being a level (assumption log 17): THE MODEL'S READING. -/
def Obligations.InvariantIsKeptByEveryStep : Prop :=
  ∀ s t : State, s.Inv → step s = .next t → t.Inv

/-- R38: SCHED_VALID = 1 implies RK = expand(K0, K1), entry by entry; every transition keeps that. -/
def Obligations.ValidScheduleIsTheKeysExpansion : Prop :=
  (State.reset.schedValid = true → ∀ i : Fin 32, State.reset.rk[i.val] = (expand State.reset.k0 State.reset.k1)[i.val]) ∧
  ∀ s t : State, (s.schedValid = true → ∀ i : Fin 32, s.rk[i.val] = (expand s.k0 s.k1)[i.val]) →
    step s = .next t → t.schedValid = true → ∀ i : Fin 32, t.rk[i.val] = (expand t.k0 t.k1)[i.val]

/-- R74: no transition changes the byte order. -/
def Obligations.ByteOrderNeverChanges : Prop :=
  ∀ s t : State, step s = .next t → t.cfg = s.cfg

/-- R86: an enabled stream step stays enabled through every other transition, until an error or a reset ends the
stream. -/
def Obligations.EnabledStreamStepStaysEnabled : Prop :=
  ∀ (s t : State) (e : HostEvent) (rest : List HostEvent), s.pending = e :: rest → e ≠ .core →
    s.streamStep.isSome = true → step s = .next t →
    t.streamStep.isSome = true ∨ (t.busy = false ∧ (t.err = true ∨ s.resets))

/-- R79, R84, R218: as long as the same streams stay attached, output already appended stays, input already consumed is
never read again. -/
def Obligations.StreamsAreNeverRolledBack : Prop :=
  ∀ s t : State, step s = .next t → (∀ rest, s.pending ≠ .attach :: rest) →
    (∃ o, t.output = s.output ++ o) ∧ (∃ i, t.input = s.input ++ i) ∧ s.inPtr ≤ t.inPtr

/-- R41, R88: BUSY falls only at the end of the stream (an empty read, or the write of the final block), by an error, or
by a reset. -/
def Obligations.BusyFallsOnlyAtStreamEndErrorOrReset : Prop :=
  ∀ s t : State, s.busy = true → step s = .next t → t.busy = false →
    s.resets ∨ t.err = true ∨
    (s.sPend = false ∧ s.unread = [] ∧ s.inEnd = true ∧ t.output = s.output) ∨
    (s.sPend = true ∧ s.sFinal = true ∧ t.output = s.output ++ bytesOfBlock s.cfg.byteOrder s.ob)

/-- R303: from an accepted write to either key register on, through any transitions (`run`, of which none is a host write
of KS_EXP, STR_ENC_PRE or STR_DEC_PRE to CMD), a precomputed block command leaves X and Y alone, and on a free core it
raises NO_SCHED: no block is ever transformed with the schedule of a previous key. -/
def Obligations.StaleScheduleIsNeverUsed : Prop :=
  ∀ (run : Nat → State) (n : Nat) (r : Reg) (v : Word) (i : Instr) (rest₀ rest : List HostEvent),
    (run 0).idle → r ∈ [.key0, .key1] → (run 0).pending = stmtWR r v :: rest₀ →
    (∀ j, j ≤ n → step (run j) = .next (run (j + 1))) →
    (∀ j, 0 < j → j ≤ n → ∀ e ∈ [Instr.ksExp, .strEncPre, .strDecPre], ∀ q, (run j).pending ≠ stmtCMD e :: q) →
    i ∈ [.blkEncPre, .blkDecPre] → (run (n + 1)).pending = stmtCMD i :: rest →
    ∃ t, step (run (n + 1)) = .next t ∧
      t.x = (run (n + 1)).x ∧ t.y = (run (n + 1)).y ∧
      t.xWritten = (run (n + 1)).xWritten ∧ t.yWritten = (run (n + 1)).yWritten ∧
      ((run (n + 1)).idle → t.err = true ∧ t.errCode = .noSched)
end

