-- ==== Sys2Proof/Laws/State.lean ====
section
/-! SUPPORT. One lemma per field per update of the state, so that no proof unfolds a record update. -/

namespace Sys2Proof.Machine.State

variable (s : State)

/-! `nextDraw` -/

@[simp] theorem nextDraw_k0 : (s.nextDraw).k0 = s.k0 := rfl
@[simp] theorem nextDraw_k1 : (s.nextDraw).k1 = s.k1 := rfl
@[simp] theorem nextDraw_x : (s.nextDraw).x = s.x := rfl
@[simp] theorem nextDraw_y : (s.nextDraw).y = s.y := rfl
@[simp] theorem nextDraw_rkin : (s.nextDraw).rkin = s.rkin := rfl
@[simp] theorem nextDraw_rk : (s.nextDraw).rk = s.rk := rfl
@[simp] theorem nextDraw_busy : (s.nextDraw).busy = s.busy := rfl
@[simp] theorem nextDraw_kv0 : (s.nextDraw).kv0 = s.kv0 := rfl
@[simp] theorem nextDraw_kv1 : (s.nextDraw).kv1 = s.kv1 := rfl
@[simp] theorem nextDraw_schedValid : (s.nextDraw).schedValid = s.schedValid := rfl
@[simp] theorem nextDraw_err : (s.nextDraw).err = s.err := rfl
@[simp] theorem nextDraw_errCode : (s.nextDraw).errCode = s.errCode := rfl
@[simp] theorem nextDraw_xWritten : (s.nextDraw).xWritten = s.xWritten := rfl
@[simp] theorem nextDraw_yWritten : (s.nextDraw).yWritten = s.yWritten := rfl
@[simp] theorem nextDraw_rkinWritten : (s.nextDraw).rkinWritten = s.rkinWritten := rfl
@[simp] theorem nextDraw_rkWritten : (s.nextDraw).rkWritten = s.rkWritten := rfl
@[simp] theorem nextDraw_ka : (s.nextDraw).ka = s.ka := rfl
@[simp] theorem nextDraw_kb : (s.nextDraw).kb = s.kb := rfl
@[simp] theorem nextDraw_roundIdx : (s.nextDraw).roundIdx = s.roundIdx := rfl
@[simp] theorem nextDraw_srk : (s.nextDraw).srk = s.srk := rfl
@[simp] theorem nextDraw_sDir : (s.nextDraw).sDir = s.sDir := rfl
@[simp] theorem nextDraw_sKMode : (s.nextDraw).sKMode = s.sKMode := rfl
@[simp] theorem nextDraw_sFinal : (s.nextDraw).sFinal = s.sFinal := rfl
@[simp] theorem nextDraw_sPend : (s.nextDraw).sPend = s.sPend := rfl
@[simp] theorem nextDraw_ob : (s.nextDraw).ob = s.ob := rfl
@[simp] theorem nextDraw_inPos : (s.nextDraw).inPos = s.inPos := rfl
@[simp] theorem nextDraw_rstN : (s.nextDraw).rstN = s.rstN := rfl
@[simp] theorem nextDraw_cfg : (s.nextDraw).cfg = s.cfg := rfl
@[simp] theorem nextDraw_input : (s.nextDraw).input = s.input := rfl
@[simp] theorem nextDraw_inPtr : (s.nextDraw).inPtr = s.inPtr := rfl
@[simp] theorem nextDraw_inEnd : (s.nextDraw).inEnd = s.inEnd := rfl
@[simp] theorem nextDraw_inFail : (s.nextDraw).inFail = s.inFail := rfl
@[simp] theorem nextDraw_output : (s.nextDraw).output = s.output := rfl
@[simp] theorem nextDraw_outReady : (s.nextDraw).outReady = s.outReady := rfl
@[simp] theorem nextDraw_outFail : (s.nextDraw).outFail = s.outFail := rfl
@[simp] theorem nextDraw_pending : (s.nextDraw).pending = s.pending := rfl
@[simp] theorem nextDraw_reads : (s.nextDraw).reads = s.reads := rfl
@[simp] theorem nextDraw_draw : (s.nextDraw).draw = s.draw + 1 := rfl

/-! `raiseError` -/

@[simp] theorem raiseError_k0 (code : ErrCode) : (s.raiseError code).k0 = s.k0 := rfl
@[simp] theorem raiseError_k1 (code : ErrCode) : (s.raiseError code).k1 = s.k1 := rfl
@[simp] theorem raiseError_x (code : ErrCode) : (s.raiseError code).x = s.x := rfl
@[simp] theorem raiseError_y (code : ErrCode) : (s.raiseError code).y = s.y := rfl
@[simp] theorem raiseError_rkin (code : ErrCode) : (s.raiseError code).rkin = s.rkin := rfl
@[simp] theorem raiseError_rk (code : ErrCode) : (s.raiseError code).rk = s.rk := rfl
@[simp] theorem raiseError_busy (code : ErrCode) : (s.raiseError code).busy = false := rfl
@[simp] theorem raiseError_kv0 (code : ErrCode) : (s.raiseError code).kv0 = s.kv0 := rfl
@[simp] theorem raiseError_kv1 (code : ErrCode) : (s.raiseError code).kv1 = s.kv1 := rfl
@[simp] theorem raiseError_schedValid (code : ErrCode) : (s.raiseError code).schedValid = s.schedValid := rfl
@[simp] theorem raiseError_err (code : ErrCode) : (s.raiseError code).err = true := rfl
@[simp] theorem raiseError_errCode (code : ErrCode) : (s.raiseError code).errCode = if s.err then s.errCode else code := rfl
@[simp] theorem raiseError_xWritten (code : ErrCode) : (s.raiseError code).xWritten = s.xWritten := rfl
@[simp] theorem raiseError_yWritten (code : ErrCode) : (s.raiseError code).yWritten = s.yWritten := rfl
@[simp] theorem raiseError_rkinWritten (code : ErrCode) : (s.raiseError code).rkinWritten = s.rkinWritten := rfl
@[simp] theorem raiseError_rkWritten (code : ErrCode) : (s.raiseError code).rkWritten = s.rkWritten := rfl
@[simp] theorem raiseError_ka (code : ErrCode) : (s.raiseError code).ka = s.ka := rfl
@[simp] theorem raiseError_kb (code : ErrCode) : (s.raiseError code).kb = s.kb := rfl
@[simp] theorem raiseError_roundIdx (code : ErrCode) : (s.raiseError code).roundIdx = s.roundIdx := rfl
@[simp] theorem raiseError_srk (code : ErrCode) : (s.raiseError code).srk = s.srk := rfl
@[simp] theorem raiseError_sDir (code : ErrCode) : (s.raiseError code).sDir = s.sDir := rfl
@[simp] theorem raiseError_sKMode (code : ErrCode) : (s.raiseError code).sKMode = s.sKMode := rfl
@[simp] theorem raiseError_sFinal (code : ErrCode) : (s.raiseError code).sFinal = s.sFinal := rfl
@[simp] theorem raiseError_sPend (code : ErrCode) : (s.raiseError code).sPend = false := rfl
@[simp] theorem raiseError_ob (code : ErrCode) : (s.raiseError code).ob = s.ob := rfl
@[simp] theorem raiseError_inPos (code : ErrCode) : (s.raiseError code).inPos = s.inPos := rfl
@[simp] theorem raiseError_rstN (code : ErrCode) : (s.raiseError code).rstN = s.rstN := rfl
@[simp] theorem raiseError_cfg (code : ErrCode) : (s.raiseError code).cfg = s.cfg := rfl
@[simp] theorem raiseError_input (code : ErrCode) : (s.raiseError code).input = s.input := rfl
@[simp] theorem raiseError_inPtr (code : ErrCode) : (s.raiseError code).inPtr = s.inPtr := rfl
@[simp] theorem raiseError_inEnd (code : ErrCode) : (s.raiseError code).inEnd = s.inEnd := rfl
@[simp] theorem raiseError_inFail (code : ErrCode) : (s.raiseError code).inFail = s.inFail := rfl
@[simp] theorem raiseError_output (code : ErrCode) : (s.raiseError code).output = s.output := rfl
@[simp] theorem raiseError_outReady (code : ErrCode) : (s.raiseError code).outReady = s.outReady := rfl
@[simp] theorem raiseError_outFail (code : ErrCode) : (s.raiseError code).outFail = s.outFail := rfl
@[simp] theorem raiseError_pending (code : ErrCode) : (s.raiseError code).pending = s.pending := rfl
@[simp] theorem raiseError_reads (code : ErrCode) : (s.raiseError code).reads = s.reads := rfl
@[simp] theorem raiseError_draw (code : ErrCode) : (s.raiseError code).draw = s.draw := rfl

/-! `resetCore` -/

@[simp] theorem resetCore_k0 : (s.resetCore).k0 = 0 := rfl
@[simp] theorem resetCore_k1 : (s.resetCore).k1 = 0 := rfl
@[simp] theorem resetCore_x : (s.resetCore).x = 0 := rfl
@[simp] theorem resetCore_y : (s.resetCore).y = 0 := rfl
@[simp] theorem resetCore_rkin : (s.resetCore).rkin = 0 := rfl
@[simp] theorem resetCore_rk : (s.resetCore).rk = Vector.replicate 32 0 := rfl
@[simp] theorem resetCore_busy : (s.resetCore).busy = false := rfl
@[simp] theorem resetCore_kv0 : (s.resetCore).kv0 = false := rfl
@[simp] theorem resetCore_kv1 : (s.resetCore).kv1 = false := rfl
@[simp] theorem resetCore_schedValid : (s.resetCore).schedValid = false := rfl
@[simp] theorem resetCore_err : (s.resetCore).err = false := rfl
@[simp] theorem resetCore_errCode : (s.resetCore).errCode = ErrCode.noError := rfl
@[simp] theorem resetCore_xWritten : (s.resetCore).xWritten = false := rfl
@[simp] theorem resetCore_yWritten : (s.resetCore).yWritten = false := rfl
@[simp] theorem resetCore_rkinWritten : (s.resetCore).rkinWritten = false := rfl
@[simp] theorem resetCore_rkWritten : (s.resetCore).rkWritten = false := rfl
@[simp] theorem resetCore_ka : (s.resetCore).ka = 0 := rfl
@[simp] theorem resetCore_kb : (s.resetCore).kb = 0 := rfl
@[simp] theorem resetCore_roundIdx : (s.resetCore).roundIdx = 0 := rfl
@[simp] theorem resetCore_srk : (s.resetCore).srk = Vector.replicate 32 0 := rfl
@[simp] theorem resetCore_sDir : (s.resetCore).sDir = .enc := rfl
@[simp] theorem resetCore_sKMode : (s.resetCore).sKMode = .pre := rfl
@[simp] theorem resetCore_sFinal : (s.resetCore).sFinal = false := rfl
@[simp] theorem resetCore_sPend : (s.resetCore).sPend = false := rfl
@[simp] theorem resetCore_ob : (s.resetCore).ob = ⟨0, 0⟩ := rfl
@[simp] theorem resetCore_inPos : (s.resetCore).inPos = 0 := rfl
@[simp] theorem resetCore_rstN : (s.resetCore).rstN = s.rstN := rfl
@[simp] theorem resetCore_cfg : (s.resetCore).cfg = s.cfg := rfl
@[simp] theorem resetCore_input : (s.resetCore).input = s.input := rfl
@[simp] theorem resetCore_inPtr : (s.resetCore).inPtr = s.inPtr := rfl
@[simp] theorem resetCore_inEnd : (s.resetCore).inEnd = s.inEnd := rfl
@[simp] theorem resetCore_inFail : (s.resetCore).inFail = s.inFail := rfl
@[simp] theorem resetCore_output : (s.resetCore).output = s.output := rfl
@[simp] theorem resetCore_outReady : (s.resetCore).outReady = s.outReady := rfl
@[simp] theorem resetCore_outFail : (s.resetCore).outFail = s.outFail := rfl
@[simp] theorem resetCore_pending : (s.resetCore).pending = s.pending := rfl
@[simp] theorem resetCore_reads : (s.resetCore).reads = s.reads := rfl
@[simp] theorem resetCore_draw : (s.resetCore).draw = s.draw := rfl

/-! `writeBlock` -/

@[simp] theorem writeBlock_k0 (b : Block) : (s.writeBlock b).k0 = s.k0 := rfl
@[simp] theorem writeBlock_k1 (b : Block) : (s.writeBlock b).k1 = s.k1 := rfl
@[simp] theorem writeBlock_x (b : Block) : (s.writeBlock b).x = b.x := rfl
@[simp] theorem writeBlock_y (b : Block) : (s.writeBlock b).y = b.y := rfl
@[simp] theorem writeBlock_rkin (b : Block) : (s.writeBlock b).rkin = s.rkin := rfl
@[simp] theorem writeBlock_rk (b : Block) : (s.writeBlock b).rk = s.rk := rfl
@[simp] theorem writeBlock_busy (b : Block) : (s.writeBlock b).busy = s.busy := rfl
@[simp] theorem writeBlock_kv0 (b : Block) : (s.writeBlock b).kv0 = s.kv0 := rfl
@[simp] theorem writeBlock_kv1 (b : Block) : (s.writeBlock b).kv1 = s.kv1 := rfl
@[simp] theorem writeBlock_schedValid (b : Block) : (s.writeBlock b).schedValid = s.schedValid := rfl
@[simp] theorem writeBlock_err (b : Block) : (s.writeBlock b).err = s.err := rfl
@[simp] theorem writeBlock_errCode (b : Block) : (s.writeBlock b).errCode = s.errCode := rfl
@[simp] theorem writeBlock_xWritten (b : Block) : (s.writeBlock b).xWritten = true := rfl
@[simp] theorem writeBlock_yWritten (b : Block) : (s.writeBlock b).yWritten = true := rfl
@[simp] theorem writeBlock_rkinWritten (b : Block) : (s.writeBlock b).rkinWritten = s.rkinWritten := rfl
@[simp] theorem writeBlock_rkWritten (b : Block) : (s.writeBlock b).rkWritten = s.rkWritten := rfl
@[simp] theorem writeBlock_ka (b : Block) : (s.writeBlock b).ka = s.ka := rfl
@[simp] theorem writeBlock_kb (b : Block) : (s.writeBlock b).kb = s.kb := rfl
@[simp] theorem writeBlock_roundIdx (b : Block) : (s.writeBlock b).roundIdx = s.roundIdx := rfl
@[simp] theorem writeBlock_srk (b : Block) : (s.writeBlock b).srk = s.srk := rfl
@[simp] theorem writeBlock_sDir (b : Block) : (s.writeBlock b).sDir = s.sDir := rfl
@[simp] theorem writeBlock_sKMode (b : Block) : (s.writeBlock b).sKMode = s.sKMode := rfl
@[simp] theorem writeBlock_sFinal (b : Block) : (s.writeBlock b).sFinal = s.sFinal := rfl
@[simp] theorem writeBlock_sPend (b : Block) : (s.writeBlock b).sPend = s.sPend := rfl
@[simp] theorem writeBlock_ob (b : Block) : (s.writeBlock b).ob = s.ob := rfl
@[simp] theorem writeBlock_inPos (b : Block) : (s.writeBlock b).inPos = s.inPos := rfl
@[simp] theorem writeBlock_rstN (b : Block) : (s.writeBlock b).rstN = s.rstN := rfl
@[simp] theorem writeBlock_cfg (b : Block) : (s.writeBlock b).cfg = s.cfg := rfl
@[simp] theorem writeBlock_input (b : Block) : (s.writeBlock b).input = s.input := rfl
@[simp] theorem writeBlock_inPtr (b : Block) : (s.writeBlock b).inPtr = s.inPtr := rfl
@[simp] theorem writeBlock_inEnd (b : Block) : (s.writeBlock b).inEnd = s.inEnd := rfl
@[simp] theorem writeBlock_inFail (b : Block) : (s.writeBlock b).inFail = s.inFail := rfl
@[simp] theorem writeBlock_output (b : Block) : (s.writeBlock b).output = s.output := rfl
@[simp] theorem writeBlock_outReady (b : Block) : (s.writeBlock b).outReady = s.outReady := rfl
@[simp] theorem writeBlock_outFail (b : Block) : (s.writeBlock b).outFail = s.outFail := rfl
@[simp] theorem writeBlock_pending (b : Block) : (s.writeBlock b).pending = s.pending := rfl
@[simp] theorem writeBlock_reads (b : Block) : (s.writeBlock b).reads = s.reads := rfl
@[simp] theorem writeBlock_draw (b : Block) : (s.writeBlock b).draw = s.draw := rfl

/-! `useKeyPair` -/

@[simp] theorem useKeyPair_k0 : (s.useKeyPair).k0 = s.k0 := rfl
@[simp] theorem useKeyPair_k1 : (s.useKeyPair).k1 = s.k1 := rfl
@[simp] theorem useKeyPair_x : (s.useKeyPair).x = s.x := rfl
@[simp] theorem useKeyPair_y : (s.useKeyPair).y = s.y := rfl
@[simp] theorem useKeyPair_rkin : (s.useKeyPair).rkin = s.rkin := rfl
@[simp] theorem useKeyPair_rk : (s.useKeyPair).rk = s.rk := rfl
@[simp] theorem useKeyPair_busy : (s.useKeyPair).busy = s.busy := rfl
@[simp] theorem useKeyPair_kv0 : (s.useKeyPair).kv0 = s.kv0 := rfl
@[simp] theorem useKeyPair_kv1 : (s.useKeyPair).kv1 = s.kv1 := rfl
@[simp] theorem useKeyPair_schedValid : (s.useKeyPair).schedValid = s.schedValid := rfl
@[simp] theorem useKeyPair_err : (s.useKeyPair).err = s.err := rfl
@[simp] theorem useKeyPair_errCode : (s.useKeyPair).errCode = s.errCode := rfl
@[simp] theorem useKeyPair_xWritten : (s.useKeyPair).xWritten = s.xWritten := rfl
@[simp] theorem useKeyPair_yWritten : (s.useKeyPair).yWritten = s.yWritten := rfl
@[simp] theorem useKeyPair_rkinWritten : (s.useKeyPair).rkinWritten = s.rkinWritten := rfl
@[simp] theorem useKeyPair_rkWritten : (s.useKeyPair).rkWritten = s.rkWritten := rfl
@[simp] theorem useKeyPair_ka : (s.useKeyPair).ka = Config.hiddenKa s.draw := rfl
@[simp] theorem useKeyPair_kb : (s.useKeyPair).kb = Config.hiddenKb s.draw := rfl
@[simp] theorem useKeyPair_roundIdx : (s.useKeyPair).roundIdx = Config.hiddenRound s.draw := rfl
@[simp] theorem useKeyPair_srk : (s.useKeyPair).srk = s.srk := rfl
@[simp] theorem useKeyPair_sDir : (s.useKeyPair).sDir = s.sDir := rfl
@[simp] theorem useKeyPair_sKMode : (s.useKeyPair).sKMode = s.sKMode := rfl
@[simp] theorem useKeyPair_sFinal : (s.useKeyPair).sFinal = s.sFinal := rfl
@[simp] theorem useKeyPair_sPend : (s.useKeyPair).sPend = s.sPend := rfl
@[simp] theorem useKeyPair_ob : (s.useKeyPair).ob = s.ob := rfl
@[simp] theorem useKeyPair_inPos : (s.useKeyPair).inPos = s.inPos := rfl
@[simp] theorem useKeyPair_rstN : (s.useKeyPair).rstN = s.rstN := rfl
@[simp] theorem useKeyPair_cfg : (s.useKeyPair).cfg = s.cfg := rfl
@[simp] theorem useKeyPair_input : (s.useKeyPair).input = s.input := rfl
@[simp] theorem useKeyPair_inPtr : (s.useKeyPair).inPtr = s.inPtr := rfl
@[simp] theorem useKeyPair_inEnd : (s.useKeyPair).inEnd = s.inEnd := rfl
@[simp] theorem useKeyPair_inFail : (s.useKeyPair).inFail = s.inFail := rfl
@[simp] theorem useKeyPair_output : (s.useKeyPair).output = s.output := rfl
@[simp] theorem useKeyPair_outReady : (s.useKeyPair).outReady = s.outReady := rfl
@[simp] theorem useKeyPair_outFail : (s.useKeyPair).outFail = s.outFail := rfl
@[simp] theorem useKeyPair_pending : (s.useKeyPair).pending = s.pending := rfl
@[simp] theorem useKeyPair_reads : (s.useKeyPair).reads = s.reads := rfl
@[simp] theorem useKeyPair_draw : (s.useKeyPair).draw = s.draw + 1 := rfl

/-! `loadSchedule` -/

@[simp] theorem loadSchedule_k0 : (s.loadSchedule).k0 = s.k0 := rfl
@[simp] theorem loadSchedule_k1 : (s.loadSchedule).k1 = s.k1 := rfl
@[simp] theorem loadSchedule_x : (s.loadSchedule).x = s.x := rfl
@[simp] theorem loadSchedule_y : (s.loadSchedule).y = s.y := rfl
@[simp] theorem loadSchedule_rkin : (s.loadSchedule).rkin = s.rkin := rfl
@[simp] theorem loadSchedule_rk : (s.loadSchedule).rk = expand s.k0 s.k1 := rfl
@[simp] theorem loadSchedule_busy : (s.loadSchedule).busy = s.busy := rfl
@[simp] theorem loadSchedule_kv0 : (s.loadSchedule).kv0 = s.kv0 := rfl
@[simp] theorem loadSchedule_kv1 : (s.loadSchedule).kv1 = s.kv1 := rfl
@[simp] theorem loadSchedule_schedValid : (s.loadSchedule).schedValid = true := rfl
@[simp] theorem loadSchedule_err : (s.loadSchedule).err = s.err := rfl
@[simp] theorem loadSchedule_errCode : (s.loadSchedule).errCode = s.errCode := rfl
@[simp] theorem loadSchedule_xWritten : (s.loadSchedule).xWritten = s.xWritten := rfl
@[simp] theorem loadSchedule_yWritten : (s.loadSchedule).yWritten = s.yWritten := rfl
@[simp] theorem loadSchedule_rkinWritten : (s.loadSchedule).rkinWritten = s.rkinWritten := rfl
@[simp] theorem loadSchedule_rkWritten : (s.loadSchedule).rkWritten = true := rfl
@[simp] theorem loadSchedule_ka : (s.loadSchedule).ka = s.ka := rfl
@[simp] theorem loadSchedule_kb : (s.loadSchedule).kb = s.kb := rfl
@[simp] theorem loadSchedule_roundIdx : (s.loadSchedule).roundIdx = s.roundIdx := rfl
@[simp] theorem loadSchedule_srk : (s.loadSchedule).srk = s.srk := rfl
@[simp] theorem loadSchedule_sDir : (s.loadSchedule).sDir = s.sDir := rfl
@[simp] theorem loadSchedule_sKMode : (s.loadSchedule).sKMode = s.sKMode := rfl
@[simp] theorem loadSchedule_sFinal : (s.loadSchedule).sFinal = s.sFinal := rfl
@[simp] theorem loadSchedule_sPend : (s.loadSchedule).sPend = s.sPend := rfl
@[simp] theorem loadSchedule_ob : (s.loadSchedule).ob = s.ob := rfl
@[simp] theorem loadSchedule_inPos : (s.loadSchedule).inPos = s.inPos := rfl
@[simp] theorem loadSchedule_rstN : (s.loadSchedule).rstN = s.rstN := rfl
@[simp] theorem loadSchedule_cfg : (s.loadSchedule).cfg = s.cfg := rfl
@[simp] theorem loadSchedule_input : (s.loadSchedule).input = s.input := rfl
@[simp] theorem loadSchedule_inPtr : (s.loadSchedule).inPtr = s.inPtr := rfl
@[simp] theorem loadSchedule_inEnd : (s.loadSchedule).inEnd = s.inEnd := rfl
@[simp] theorem loadSchedule_inFail : (s.loadSchedule).inFail = s.inFail := rfl
@[simp] theorem loadSchedule_output : (s.loadSchedule).output = s.output := rfl
@[simp] theorem loadSchedule_outReady : (s.loadSchedule).outReady = s.outReady := rfl
@[simp] theorem loadSchedule_outFail : (s.loadSchedule).outFail = s.outFail := rfl
@[simp] theorem loadSchedule_pending : (s.loadSchedule).pending = s.pending := rfl
@[simp] theorem loadSchedule_reads : (s.loadSchedule).reads = s.reads := rfl
@[simp] theorem loadSchedule_draw : (s.loadSchedule).draw = s.draw := rfl

/-! `rebuildScratch` -/

@[simp] theorem rebuildScratch_k0 : (s.rebuildScratch).k0 = s.k0 := rfl
@[simp] theorem rebuildScratch_k1 : (s.rebuildScratch).k1 = s.k1 := rfl
@[simp] theorem rebuildScratch_x : (s.rebuildScratch).x = s.x := rfl
@[simp] theorem rebuildScratch_y : (s.rebuildScratch).y = s.y := rfl
@[simp] theorem rebuildScratch_rkin : (s.rebuildScratch).rkin = s.rkin := rfl
@[simp] theorem rebuildScratch_rk : (s.rebuildScratch).rk = s.rk := rfl
@[simp] theorem rebuildScratch_busy : (s.rebuildScratch).busy = s.busy := rfl
@[simp] theorem rebuildScratch_kv0 : (s.rebuildScratch).kv0 = s.kv0 := rfl
@[simp] theorem rebuildScratch_kv1 : (s.rebuildScratch).kv1 = s.kv1 := rfl
@[simp] theorem rebuildScratch_schedValid : (s.rebuildScratch).schedValid = s.schedValid := rfl
@[simp] theorem rebuildScratch_err : (s.rebuildScratch).err = s.err := rfl
@[simp] theorem rebuildScratch_errCode : (s.rebuildScratch).errCode = s.errCode := rfl
@[simp] theorem rebuildScratch_xWritten : (s.rebuildScratch).xWritten = s.xWritten := rfl
@[simp] theorem rebuildScratch_yWritten : (s.rebuildScratch).yWritten = s.yWritten := rfl
@[simp] theorem rebuildScratch_rkinWritten : (s.rebuildScratch).rkinWritten = s.rkinWritten := rfl
@[simp] theorem rebuildScratch_rkWritten : (s.rebuildScratch).rkWritten = s.rkWritten := rfl
@[simp] theorem rebuildScratch_ka : (s.rebuildScratch).ka = s.ka := rfl
@[simp] theorem rebuildScratch_kb : (s.rebuildScratch).kb = s.kb := rfl
@[simp] theorem rebuildScratch_roundIdx : (s.rebuildScratch).roundIdx = s.roundIdx := rfl
@[simp] theorem rebuildScratch_srk : (s.rebuildScratch).srk = expand s.k0 s.k1 := rfl
@[simp] theorem rebuildScratch_sDir : (s.rebuildScratch).sDir = s.sDir := rfl
@[simp] theorem rebuildScratch_sKMode : (s.rebuildScratch).sKMode = s.sKMode := rfl
@[simp] theorem rebuildScratch_sFinal : (s.rebuildScratch).sFinal = s.sFinal := rfl
@[simp] theorem rebuildScratch_sPend : (s.rebuildScratch).sPend = s.sPend := rfl
@[simp] theorem rebuildScratch_ob : (s.rebuildScratch).ob = s.ob := rfl
@[simp] theorem rebuildScratch_inPos : (s.rebuildScratch).inPos = s.inPos := rfl
@[simp] theorem rebuildScratch_rstN : (s.rebuildScratch).rstN = s.rstN := rfl
@[simp] theorem rebuildScratch_cfg : (s.rebuildScratch).cfg = s.cfg := rfl
@[simp] theorem rebuildScratch_input : (s.rebuildScratch).input = s.input := rfl
@[simp] theorem rebuildScratch_inPtr : (s.rebuildScratch).inPtr = s.inPtr := rfl
@[simp] theorem rebuildScratch_inEnd : (s.rebuildScratch).inEnd = s.inEnd := rfl
@[simp] theorem rebuildScratch_inFail : (s.rebuildScratch).inFail = s.inFail := rfl
@[simp] theorem rebuildScratch_output : (s.rebuildScratch).output = s.output := rfl
@[simp] theorem rebuildScratch_outReady : (s.rebuildScratch).outReady = s.outReady := rfl
@[simp] theorem rebuildScratch_outFail : (s.rebuildScratch).outFail = s.outFail := rfl
@[simp] theorem rebuildScratch_pending : (s.rebuildScratch).pending = s.pending := rfl
@[simp] theorem rebuildScratch_reads : (s.rebuildScratch).reads = s.reads := rfl
@[simp] theorem rebuildScratch_draw : (s.rebuildScratch).draw = s.draw := rfl

/-! `writeReg`: the fields no register write touches, then each register. -/

@[simp] theorem writeReg_rk (v : Word) (r : Reg) : (s.writeReg v r).rk = s.rk := by cases r <;> rfl
@[simp] theorem writeReg_busy (v : Word) (r : Reg) : (s.writeReg v r).busy = s.busy := by cases r <;> rfl
@[simp] theorem writeReg_err (v : Word) (r : Reg) : (s.writeReg v r).err = s.err := by cases r <;> rfl
@[simp] theorem writeReg_errCode (v : Word) (r : Reg) : (s.writeReg v r).errCode = s.errCode := by cases r <;> rfl
@[simp] theorem writeReg_rkWritten (v : Word) (r : Reg) : (s.writeReg v r).rkWritten = s.rkWritten := by cases r <;> rfl
@[simp] theorem writeReg_ka (v : Word) (r : Reg) : (s.writeReg v r).ka = s.ka := by cases r <;> rfl
@[simp] theorem writeReg_kb (v : Word) (r : Reg) : (s.writeReg v r).kb = s.kb := by cases r <;> rfl
@[simp] theorem writeReg_roundIdx (v : Word) (r : Reg) : (s.writeReg v r).roundIdx = s.roundIdx := by cases r <;> rfl
@[simp] theorem writeReg_srk (v : Word) (r : Reg) : (s.writeReg v r).srk = s.srk := by cases r <;> rfl
@[simp] theorem writeReg_sDir (v : Word) (r : Reg) : (s.writeReg v r).sDir = s.sDir := by cases r <;> rfl
@[simp] theorem writeReg_sKMode (v : Word) (r : Reg) : (s.writeReg v r).sKMode = s.sKMode := by cases r <;> rfl
@[simp] theorem writeReg_sFinal (v : Word) (r : Reg) : (s.writeReg v r).sFinal = s.sFinal := by cases r <;> rfl
@[simp] theorem writeReg_sPend (v : Word) (r : Reg) : (s.writeReg v r).sPend = s.sPend := by cases r <;> rfl
@[simp] theorem writeReg_ob (v : Word) (r : Reg) : (s.writeReg v r).ob = s.ob := by cases r <;> rfl
@[simp] theorem writeReg_inPos (v : Word) (r : Reg) : (s.writeReg v r).inPos = s.inPos := by cases r <;> rfl
@[simp] theorem writeReg_rstN (v : Word) (r : Reg) : (s.writeReg v r).rstN = s.rstN := by cases r <;> rfl
@[simp] theorem writeReg_cfg (v : Word) (r : Reg) : (s.writeReg v r).cfg = s.cfg := by cases r <;> rfl
@[simp] theorem writeReg_input (v : Word) (r : Reg) : (s.writeReg v r).input = s.input := by cases r <;> rfl
@[simp] theorem writeReg_inPtr (v : Word) (r : Reg) : (s.writeReg v r).inPtr = s.inPtr := by cases r <;> rfl
@[simp] theorem writeReg_inEnd (v : Word) (r : Reg) : (s.writeReg v r).inEnd = s.inEnd := by cases r <;> rfl
@[simp] theorem writeReg_inFail (v : Word) (r : Reg) : (s.writeReg v r).inFail = s.inFail := by cases r <;> rfl
@[simp] theorem writeReg_output (v : Word) (r : Reg) : (s.writeReg v r).output = s.output := by cases r <;> rfl
@[simp] theorem writeReg_outReady (v : Word) (r : Reg) : (s.writeReg v r).outReady = s.outReady := by cases r <;> rfl
@[simp] theorem writeReg_outFail (v : Word) (r : Reg) : (s.writeReg v r).outFail = s.outFail := by cases r <;> rfl
@[simp] theorem writeReg_pending (v : Word) (r : Reg) : (s.writeReg v r).pending = s.pending := by cases r <;> rfl
@[simp] theorem writeReg_reads (v : Word) (r : Reg) : (s.writeReg v r).reads = s.reads := by cases r <;> rfl
@[simp] theorem writeReg_draw (v : Word) (r : Reg) : (s.writeReg v r).draw = s.draw := by cases r <;> rfl
@[simp] theorem writeReg_at_key0 (v : Word) : s.writeReg v .key0 = { s with k0 := v, kv0 := true, schedValid := false } := rfl
@[simp] theorem writeReg_at_key1 (v : Word) : s.writeReg v .key1 = { s with k1 := v, kv1 := true, schedValid := false } := rfl
@[simp] theorem writeReg_at_x (v : Word) : s.writeReg v .x = { s with x := v, xWritten := true } := rfl
@[simp] theorem writeReg_at_y (v : Word) : s.writeReg v .y = { s with y := v, yWritten := true } := rfl
@[simp] theorem writeReg_at_rkin (v : Word) : s.writeReg v .rkin = { s with rkin := v, rkinWritten := true } := rfl

/-! `startStream` -/

@[simp] theorem startStream_k0 (d : Dir) (k : KMode) : (s.startStream d k).k0 = s.k0 := by cases k <;> rfl
@[simp] theorem startStream_k1 (d : Dir) (k : KMode) : (s.startStream d k).k1 = s.k1 := by cases k <;> rfl
@[simp] theorem startStream_x (d : Dir) (k : KMode) : (s.startStream d k).x = s.x := by cases k <;> rfl
@[simp] theorem startStream_y (d : Dir) (k : KMode) : (s.startStream d k).y = s.y := by cases k <;> rfl
@[simp] theorem startStream_rkin (d : Dir) (k : KMode) : (s.startStream d k).rkin = s.rkin := by cases k <;> rfl
@[simp] theorem startStream_busy (d : Dir) (k : KMode) : (s.startStream d k).busy = true := by cases k <;> rfl
@[simp] theorem startStream_kv0 (d : Dir) (k : KMode) : (s.startStream d k).kv0 = s.kv0 := by cases k <;> rfl
@[simp] theorem startStream_kv1 (d : Dir) (k : KMode) : (s.startStream d k).kv1 = s.kv1 := by cases k <;> rfl
@[simp] theorem startStream_err (d : Dir) (k : KMode) : (s.startStream d k).err = s.err := by cases k <;> rfl
@[simp] theorem startStream_errCode (d : Dir) (k : KMode) : (s.startStream d k).errCode = s.errCode := by cases k <;> rfl
@[simp] theorem startStream_xWritten (d : Dir) (k : KMode) : (s.startStream d k).xWritten = s.xWritten := by cases k <;> rfl
@[simp] theorem startStream_yWritten (d : Dir) (k : KMode) : (s.startStream d k).yWritten = s.yWritten := by cases k <;> rfl
@[simp] theorem startStream_rkinWritten (d : Dir) (k : KMode) : (s.startStream d k).rkinWritten = s.rkinWritten := by cases k <;> rfl
@[simp] theorem startStream_ka (d : Dir) (k : KMode) : (s.startStream d k).ka = s.ka := by cases k <;> rfl
@[simp] theorem startStream_kb (d : Dir) (k : KMode) : (s.startStream d k).kb = s.kb := by cases k <;> rfl
@[simp] theorem startStream_roundIdx (d : Dir) (k : KMode) : (s.startStream d k).roundIdx = s.roundIdx := by cases k <;> rfl
@[simp] theorem startStream_srk (d : Dir) (k : KMode) : (s.startStream d k).srk = s.srk := by cases k <;> rfl
@[simp] theorem startStream_sDir (d : Dir) (k : KMode) : (s.startStream d k).sDir = d := by cases k <;> rfl
@[simp] theorem startStream_sKMode (d : Dir) (k : KMode) : (s.startStream d k).sKMode = k := by cases k <;> rfl
@[simp] theorem startStream_sFinal (d : Dir) (k : KMode) : (s.startStream d k).sFinal = false := by cases k <;> rfl
@[simp] theorem startStream_sPend (d : Dir) (k : KMode) : (s.startStream d k).sPend = false := by cases k <;> rfl
@[simp] theorem startStream_ob (d : Dir) (k : KMode) : (s.startStream d k).ob = s.ob := by cases k <;> rfl
@[simp] theorem startStream_inPos (d : Dir) (k : KMode) : (s.startStream d k).inPos = 0 := by cases k <;> rfl
@[simp] theorem startStream_rstN (d : Dir) (k : KMode) : (s.startStream d k).rstN = s.rstN := by cases k <;> rfl
@[simp] theorem startStream_cfg (d : Dir) (k : KMode) : (s.startStream d k).cfg = s.cfg := by cases k <;> rfl
@[simp] theorem startStream_input (d : Dir) (k : KMode) : (s.startStream d k).input = s.input := by cases k <;> rfl
@[simp] theorem startStream_inPtr (d : Dir) (k : KMode) : (s.startStream d k).inPtr = s.inPtr := by cases k <;> rfl
@[simp] theorem startStream_inEnd (d : Dir) (k : KMode) : (s.startStream d k).inEnd = s.inEnd := by cases k <;> rfl
@[simp] theorem startStream_inFail (d : Dir) (k : KMode) : (s.startStream d k).inFail = s.inFail := by cases k <;> rfl
@[simp] theorem startStream_output (d : Dir) (k : KMode) : (s.startStream d k).output = s.output := by cases k <;> rfl
@[simp] theorem startStream_outReady (d : Dir) (k : KMode) : (s.startStream d k).outReady = s.outReady := by cases k <;> rfl
@[simp] theorem startStream_outFail (d : Dir) (k : KMode) : (s.startStream d k).outFail = s.outFail := by cases k <;> rfl
@[simp] theorem startStream_pending (d : Dir) (k : KMode) : (s.startStream d k).pending = s.pending := by cases k <;> rfl
@[simp] theorem startStream_reads (d : Dir) (k : KMode) : (s.startStream d k).reads = s.reads := by cases k <;> rfl
@[simp] theorem startStream_draw (d : Dir) (k : KMode) : (s.startStream d k).draw = s.draw := by cases k <;> rfl
@[simp] theorem startStream_pre_rk (d : Dir) : (s.startStream d .pre).rk = expand s.k0 s.k1 := rfl
@[simp] theorem startStream_pre_rkWritten (d : Dir) : (s.startStream d .pre).rkWritten = true := rfl
@[simp] theorem startStream_pre_schedValid (d : Dir) : (s.startStream d .pre).schedValid = true := rfl
@[simp] theorem startStream_fus_rk (d : Dir) : (s.startStream d .fus).rk = s.rk := rfl
@[simp] theorem startStream_fus_rkWritten (d : Dir) : (s.startStream d .fus).rkWritten = s.rkWritten := rfl
@[simp] theorem startStream_fus_schedValid (d : Dir) : (s.startStream d .fus).schedValid = s.schedValid := rfl

/-! `transformHidden` changes hidden fields only; `takeChunk` sets three fields beside them. -/

@[simp] theorem transformHidden_k0 : s.transformHidden.k0 = s.k0 := by
  unfold transformHidden; split <;> rfl
@[simp] theorem transformHidden_k1 : s.transformHidden.k1 = s.k1 := by
  unfold transformHidden; split <;> rfl
@[simp] theorem transformHidden_x : s.transformHidden.x = s.x := by
  unfold transformHidden; split <;> rfl
@[simp] theorem transformHidden_y : s.transformHidden.y = s.y := by
  unfold transformHidden; split <;> rfl
@[simp] theorem transformHidden_rkin : s.transformHidden.rkin = s.rkin := by
  unfold transformHidden; split <;> rfl
@[simp] theorem transformHidden_rk : s.transformHidden.rk = s.rk := by
  unfold transformHidden; split <;> rfl
@[simp] theorem transformHidden_busy : s.transformHidden.busy = s.busy := by
  unfold transformHidden; split <;> rfl
@[simp] theorem transformHidden_kv0 : s.transformHidden.kv0 = s.kv0 := by
  unfold transformHidden; split <;> rfl
@[simp] theorem transformHidden_kv1 : s.transformHidden.kv1 = s.kv1 := by
  unfold transformHidden; split <;> rfl
@[simp] theorem transformHidden_schedValid : s.transformHidden.schedValid = s.schedValid := by
  unfold transformHidden; split <;> rfl
@[simp] theorem transformHidden_err : s.transformHidden.err = s.err := by
  unfold transformHidden; split <;> rfl
@[simp] theorem transformHidden_errCode : s.transformHidden.errCode = s.errCode := by
  unfold transformHidden; split <;> rfl
@[simp] theorem transformHidden_xWritten : s.transformHidden.xWritten = s.xWritten := by
  unfold transformHidden; split <;> rfl
@[simp] theorem transformHidden_yWritten : s.transformHidden.yWritten = s.yWritten := by
  unfold transformHidden; split <;> rfl
@[simp] theorem transformHidden_rkinWritten : s.transformHidden.rkinWritten = s.rkinWritten := by
  unfold transformHidden; split <;> rfl
@[simp] theorem transformHidden_rkWritten : s.transformHidden.rkWritten = s.rkWritten := by
  unfold transformHidden; split <;> rfl
@[simp] theorem transformHidden_sDir : s.transformHidden.sDir = s.sDir := by
  unfold transformHidden; split <;> rfl
@[simp] theorem transformHidden_sKMode : s.transformHidden.sKMode = s.sKMode := by
  unfold transformHidden; split <;> rfl
@[simp] theorem transformHidden_sFinal : s.transformHidden.sFinal = s.sFinal := by
  unfold transformHidden; split <;> rfl
@[simp] theorem transformHidden_sPend : s.transformHidden.sPend = s.sPend := by
  unfold transformHidden; split <;> rfl
@[simp] theorem transformHidden_ob : s.transformHidden.ob = s.ob := by
  unfold transformHidden; split <;> rfl
@[simp] theorem transformHidden_inPos : s.transformHidden.inPos = s.inPos := by
  unfold transformHidden; split <;> rfl
@[simp] theorem transformHidden_rstN : s.transformHidden.rstN = s.rstN := by
  unfold transformHidden; split <;> rfl
@[simp] theorem transformHidden_cfg : s.transformHidden.cfg = s.cfg := by
  unfold transformHidden; split <;> rfl
@[simp] theorem transformHidden_input : s.transformHidden.input = s.input := by
  unfold transformHidden; split <;> rfl
@[simp] theorem transformHidden_inPtr : s.transformHidden.inPtr = s.inPtr := by
  unfold transformHidden; split <;> rfl
@[simp] theorem transformHidden_inEnd : s.transformHidden.inEnd = s.inEnd := by
  unfold transformHidden; split <;> rfl
@[simp] theorem transformHidden_inFail : s.transformHidden.inFail = s.inFail := by
  unfold transformHidden; split <;> rfl
@[simp] theorem transformHidden_output : s.transformHidden.output = s.output := by
  unfold transformHidden; split <;> rfl
@[simp] theorem transformHidden_outReady : s.transformHidden.outReady = s.outReady := by
  unfold transformHidden; split <;> rfl
@[simp] theorem transformHidden_outFail : s.transformHidden.outFail = s.outFail := by
  unfold transformHidden; split <;> rfl
@[simp] theorem transformHidden_pending : s.transformHidden.pending = s.pending := by
  unfold transformHidden; split <;> rfl
@[simp] theorem transformHidden_reads : s.transformHidden.reads = s.reads := by
  unfold transformHidden; split <;> rfl
@[simp] theorem takeChunk_k0 (c : List Byte) : (s.takeChunk c).k0 = s.k0 := transformHidden_k0 s
@[simp] theorem takeChunk_k1 (c : List Byte) : (s.takeChunk c).k1 = s.k1 := transformHidden_k1 s
@[simp] theorem takeChunk_x (c : List Byte) : (s.takeChunk c).x = s.x := transformHidden_x s
@[simp] theorem takeChunk_y (c : List Byte) : (s.takeChunk c).y = s.y := transformHidden_y s
@[simp] theorem takeChunk_rkin (c : List Byte) : (s.takeChunk c).rkin = s.rkin := transformHidden_rkin s
@[simp] theorem takeChunk_rk (c : List Byte) : (s.takeChunk c).rk = s.rk := transformHidden_rk s
@[simp] theorem takeChunk_busy (c : List Byte) : (s.takeChunk c).busy = s.busy := transformHidden_busy s
@[simp] theorem takeChunk_kv0 (c : List Byte) : (s.takeChunk c).kv0 = s.kv0 := transformHidden_kv0 s
@[simp] theorem takeChunk_kv1 (c : List Byte) : (s.takeChunk c).kv1 = s.kv1 := transformHidden_kv1 s
@[simp] theorem takeChunk_schedValid (c : List Byte) : (s.takeChunk c).schedValid = s.schedValid := transformHidden_schedValid s
@[simp] theorem takeChunk_err (c : List Byte) : (s.takeChunk c).err = s.err := transformHidden_err s
@[simp] theorem takeChunk_errCode (c : List Byte) : (s.takeChunk c).errCode = s.errCode := transformHidden_errCode s
@[simp] theorem takeChunk_xWritten (c : List Byte) : (s.takeChunk c).xWritten = s.xWritten := transformHidden_xWritten s
@[simp] theorem takeChunk_yWritten (c : List Byte) : (s.takeChunk c).yWritten = s.yWritten := transformHidden_yWritten s
@[simp] theorem takeChunk_rkinWritten (c : List Byte) : (s.takeChunk c).rkinWritten = s.rkinWritten := transformHidden_rkinWritten s
@[simp] theorem takeChunk_rkWritten (c : List Byte) : (s.takeChunk c).rkWritten = s.rkWritten := transformHidden_rkWritten s
@[simp] theorem takeChunk_sDir (c : List Byte) : (s.takeChunk c).sDir = s.sDir := transformHidden_sDir s
@[simp] theorem takeChunk_sKMode (c : List Byte) : (s.takeChunk c).sKMode = s.sKMode := transformHidden_sKMode s
@[simp] theorem takeChunk_sFinal (c : List Byte) : (s.takeChunk c).sFinal = (s.sFinal || decide (c.length < 16)) := rfl
@[simp] theorem takeChunk_sPend (c : List Byte) : (s.takeChunk c).sPend = true := rfl
@[simp] theorem takeChunk_ob (c : List Byte) : (s.takeChunk c).ob = s.transform (blockOfChunk s.cfg.byteOrder (zeroFill c)) := rfl
@[simp] theorem takeChunk_inPos (c : List Byte) : (s.takeChunk c).inPos = s.inPos := transformHidden_inPos s
@[simp] theorem takeChunk_rstN (c : List Byte) : (s.takeChunk c).rstN = s.rstN := transformHidden_rstN s
@[simp] theorem takeChunk_cfg (c : List Byte) : (s.takeChunk c).cfg = s.cfg := transformHidden_cfg s
@[simp] theorem takeChunk_input (c : List Byte) : (s.takeChunk c).input = s.input := transformHidden_input s
@[simp] theorem takeChunk_inPtr (c : List Byte) : (s.takeChunk c).inPtr = s.inPtr := transformHidden_inPtr s
@[simp] theorem takeChunk_inEnd (c : List Byte) : (s.takeChunk c).inEnd = s.inEnd := transformHidden_inEnd s
@[simp] theorem takeChunk_inFail (c : List Byte) : (s.takeChunk c).inFail = s.inFail := transformHidden_inFail s
@[simp] theorem takeChunk_output (c : List Byte) : (s.takeChunk c).output = s.output := transformHidden_output s
@[simp] theorem takeChunk_outReady (c : List Byte) : (s.takeChunk c).outReady = s.outReady := transformHidden_outReady s
@[simp] theorem takeChunk_outFail (c : List Byte) : (s.takeChunk c).outFail = s.outFail := transformHidden_outFail s
@[simp] theorem takeChunk_pending (c : List Byte) : (s.takeChunk c).pending = s.pending := transformHidden_pending s
@[simp] theorem takeChunk_reads (c : List Byte) : (s.takeChunk c).reads = s.reads := transformHidden_reads s

end Sys2Proof.Machine.State
end

