-- ==== Sys2Proof/Laws/Ops.lean ====
section
/-! SUPPORT. What each shared operation can do, said once: the stream ports, the phases, the stream step. -/

namespace Sys2Proof.Machine.State

variable {s t : State}

/-- `InRead16` answers in one of two ways (R84). -/
theorem inRead16_cases {a : ReadAnswer} (h : s.inRead16 = some (a, t)) :
    (a = .readFail ∧ s.inFail = true ∧ t = { s with inFail := false }) ∨
    (a = .chunk (s.unread.take 16) ∧ s.inFail = false ∧ (16 ≤ s.unread.length ∨ s.inEnd = true) ∧
      t = { s with
        inPtr := s.inPtr + (s.unread.take 16).length
        inPos := s.inPos + (s.unread.take 16).length }) := by
  unfold inRead16 at h
  split at h
  · cases h; exact .inl ⟨rfl, ‹_›, rfl⟩
  · split at h
    · cases h; exact .inr ⟨rfl, by simpa using ‹¬ s.inFail = true›, ‹_›, rfl⟩
    · cases h

/-- A read is held exactly while no failure is reported, 16 bytes are not there and the end is not marked (R84). -/
theorem inRead16_eq_none :
    s.inRead16 = none ↔ s.inFail = false ∧ s.unread.length < 16 ∧ s.inEnd = false := by
  unfold inRead16
  split
  · simp_all
  · rename_i hf
    split
    · rename_i hav
      simp only [reduceCtorEq, false_iff, not_and, Bool.not_eq_false]
      intro _ hlt
      exact hav.resolve_left (by omega)
    · simp_all

/-- `OutWrite16` answers in one of two ways (R85). -/
theorem outWrite16_cases {o : List Byte} {w : WriteAnswer} (h : s.outWrite16 o = some (w, t)) :
    (∃ m, w = .writeFail ∧ s.outFail = some m ∧
      t = { s with output := s.output ++ o.take m.val, outFail := none }) ∨
    (w = .ok ∧ s.outFail = none ∧ s.outReady = true ∧ t = { s with output := s.output ++ o }) := by
  unfold outWrite16 at h
  split at h
  · rename_i m hm
    cases h; exact .inl ⟨m, rfl, hm, rfl⟩
  · split at h
    · cases h; exact .inr ⟨rfl, ‹_›, ‹_›, rfl⟩
    · cases h

/-- A write is held exactly while the host neither accepts nor reports a failure (R85). -/
theorem outWrite16_eq_none {o : List Byte} :
    s.outWrite16 o = none ↔ s.outFail = none ∧ s.outReady = false := by
  unfold outWrite16
  split
  · simp_all
  · split <;> simp_all

/-- The read phase ends in one of three ways (R203, R205, R206). -/
theorem readPhase_cases (h : s.readPhase = some t) :
    (s.inFail = true ∧ t = ({ s with inFail := false } : State).raiseError .inErr) ∨
    (s.inFail = false ∧ s.inEnd = true ∧ s.unread = [] ∧ t = { s with busy := false }) ∨
    (s.inFail = false ∧ (16 ≤ s.unread.length ∨ s.inEnd = true) ∧ s.unread ≠ [] ∧
      t = ({ s with
        inPtr := s.inPtr + (s.unread.take 16).length
        inPos := s.inPos + (s.unread.take 16).length } : State).takeChunk (s.unread.take 16)) := by
  unfold readPhase at h
  split at h
  · cases h
  · rename_i s1 hr
    obtain ⟨-, hf, rfl⟩ | ⟨ha, -⟩ := inRead16_cases hr
    · cases h; exact .inl ⟨hf, rfl⟩
    · cases ha
  · rename_i c s1 hr
    obtain ⟨ha, -⟩ | ⟨ha, hf, hav, rfl⟩ := inRead16_cases hr
    · cases ha
    · cases ha
      split at h
      · rename_i h0
        cases h
        have hnil : s.unread = [] := by
          cases hu : s.unread with
          | nil => rfl
          | cons b bs => simp [hu] at h0
        refine .inr (.inl ⟨hf, ?_, hnil, ?_⟩)
        · simpa [hnil] using hav
        · simp [hnil]
      · rename_i h0
        cases h
        exact .inr (.inr ⟨hf, hav, by rintro hn; simp [hn] at h0, rfl⟩)

theorem readPhase_eq_none : s.readPhase = none ↔ s.inRead16 = none := by
  unfold readPhase
  split
  · simp_all
  · simp_all
  · split <;> simp_all

/-- The write phase ends in one of two ways (R203, R208, R209). -/
theorem writePhase_cases (h : s.writePhase = some t) :
    (∃ m, s.outFail = some m ∧
      t = ({ ({ s with
              output := s.output ++ (bytesOfBlock s.cfg.byteOrder s.ob).take m.val
              outFail := none } : State).writeBlock s.ob with sPend := false } : State).raiseError .outErr) ∨
    (s.outFail = none ∧ s.outReady = true ∧
      t = { ({ s with output := s.output ++ bytesOfBlock s.cfg.byteOrder s.ob } : State).writeBlock s.ob with
            sPend := false, busy := s.busy && !s.sFinal }) := by
  unfold writePhase at h
  split at h
  · cases h
  · rename_i w s1 hw
    obtain ⟨m, rfl, hm, rfl⟩ | ⟨rfl, hf, hr, rfl⟩ := outWrite16_cases hw
    · cases h; exact .inl ⟨m, hm, rfl⟩
    · cases h; exact .inr ⟨hf, hr, rfl⟩

theorem writePhase_eq_none : s.writePhase = none ↔ s.outFail = none ∧ s.outReady = false := by
  rw [← outWrite16_eq_none (o := bytesOfBlock s.cfg.byteOrder s.ob)]
  unfold writePhase
  split
  · simp_all
  · rename_i w s1 hw
    cases w <;> simp_all

/-- A stream step is one phase of a running stream (R203). -/
theorem streamStep_cases (h : s.streamStep = some t) :
    s.busy = true ∧ s.err = false ∧
      ((s.sPend = true ∧ s.writePhase = some t) ∨ (s.sPend = false ∧ s.readPhase = some t)) := by
  unfold streamStep at h
  split at h
  · split at h <;> simp_all
  · cases h

/-- The core's turn is its stream step, or nothing moves (R86). -/
theorem coreTurn_cases (s : State) : s.streamStep = some s.coreTurn ∨ (s.streamStep = none ∧ s.coreTurn = s) := by
  unfold coreTurn
  split <;> simp_all

theorem coreTurn_of_some (h : s.streamStep = some t) : s.coreTurn = t := by
  simp [coreTurn, h]

theorem coreTurn_of_none (h : s.streamStep = none) : s.coreTurn = s := by
  simp [coreTurn, h]

end Sys2Proof.Machine.State
end

