-- ==== Sys2Proof/Laws/Bus.lean ====
section
/-! SUPPORT. What each command, each bus access and each step can do, said once. -/

namespace Sys2Proof.Machine

variable {s t : State}

/-! Commands (30_encoding.md R101). -/

@[simp] theorem exec_nop : exec .nop s = .next s := rfl

@[simp] theorem exec_rndF : exec .rndF s = .next ((s.writeBlock (roundF s.block (s.value .rkin))).nextDraw) := rfl

@[simp] theorem exec_rndI : exec .rndI s = .next ((s.writeBlock (roundI s.block (s.value .rkin))).nextDraw) := rfl

theorem exec_ksExp : exec .ksExp s = .next (if s.keyValid then s.loadSchedule else s.raiseError .noKey) := by
  show execKsExp s = _; unfold execKsExp; cases s.keyValid <;> rfl

theorem exec_blkEncPre : exec .blkEncPre s =
    .next (if s.schedValid then (s.writeBlock (enc s.rk s.block)).nextDraw else s.raiseError .noSched) := by
  show execBlkEncPre s = _; unfold execBlkEncPre blkPre; cases s.schedValid <;> rfl

theorem exec_blkDecPre : exec .blkDecPre s =
    .next (if s.schedValid then (s.writeBlock (dec s.rk s.block)).nextDraw else s.raiseError .noSched) := by
  show execBlkDecPre s = _; unfold execBlkDecPre blkPre; cases s.schedValid <;> rfl

theorem exec_blkEncFus : exec .blkEncFus s =
    .next (if s.keyValid then (s.writeBlock (encFused s.k0 s.k1 s.block)).useKeyPair else s.raiseError .noKey) := by
  show execBlkEncFus s = _; unfold execBlkEncFus; cases s.keyValid <;> rfl

theorem exec_blkDecFus : exec .blkDecFus s =
    .next (if s.keyValid then (s.writeBlock (decFused s.k0 s.k1 s.block)).rebuildScratch.useKeyPair
      else s.raiseError .noKey) := by
  show execBlkDecFus s = _; unfold execBlkDecFus; cases s.keyValid <;> rfl

theorem exec_stream (d : Dir) (k : KMode) : exec (decodeStr k d) s =
    .next (if s.keyValid then s.startStream d k else s.raiseError .noKey) := by
  cases d <;> cases k <;>
    (show streamCommand _ _ s = _; unfold streamCommand; cases s.keyValid <;> rfl)

@[simp] theorem exec_srst : exec .srst s = .next s.resetCore := rfl

/-- A command leaves the core in one of these states. -/
theorem exec_cases {i : Instr} (h : exec i s = .next t) :
    (i = .nop ∧ t = s) ∨
    (∃ f, (i = .rndF ∨ i = .rndI) ∧ t = (s.writeBlock f).nextDraw) ∨
    (i = .ksExp ∧ s.keyValid = true ∧ t = s.loadSchedule) ∨
    (∃ f, (i = .blkEncPre ∨ i = .blkDecPre) ∧ s.schedValid = true ∧ t = (s.writeBlock f).nextDraw) ∨
    (∃ f, i = .blkEncFus ∧ s.keyValid = true ∧ t = (s.writeBlock f).useKeyPair) ∨
    (∃ f, i = .blkDecFus ∧ s.keyValid = true ∧ t = (s.writeBlock f).rebuildScratch.useKeyPair) ∨
    (∃ d k, i = decodeStr k d ∧ s.keyValid = true ∧ t = s.startStream d k) ∨
    (s.keyValid = false ∧ t = s.raiseError .noKey) ∨
    (s.schedValid = false ∧ t = s.raiseError .noSched) ∨
    (i = .srst ∧ t = s.resetCore) := by
  have stream : ∀ d k, exec (decodeStr k d) s = .next t →
      (s.keyValid = true ∧ t = s.startStream d k) ∨ (s.keyValid = false ∧ t = s.raiseError .noKey) := by
    intro d k h
    rw [exec_stream] at h
    cases hk : s.keyValid <;> simp_all
  cases i with
  | nop => simp_all
  | rndF => cases h; exact .inr (.inl ⟨_, .inl rfl, rfl⟩)
  | rndI => cases h; exact .inr (.inl ⟨_, .inr rfl, rfl⟩)
  | ksExp =>
    rw [exec_ksExp] at h
    cases hk : s.keyValid <;> simp_all
  | blkEncPre =>
    rw [exec_blkEncPre] at h
    cases hk : s.schedValid <;> simp_all
    exact .inl ⟨_, h.symm⟩
  | blkDecPre =>
    rw [exec_blkDecPre] at h
    cases hk : s.schedValid <;> simp_all
    exact .inl ⟨_, h.symm⟩
  | blkEncFus =>
    rw [exec_blkEncFus] at h
    cases hk : s.keyValid <;> simp_all
    exact .inl ⟨_, h.symm⟩
  | blkDecFus =>
    rw [exec_blkDecFus] at h
    cases hk : s.keyValid <;> simp_all
    exact .inl ⟨_, h.symm⟩
  | strEncPre =>
    obtain ⟨hk, ht⟩ | ⟨hk, ht⟩ := stream .enc .pre h
    · exact .inr (.inr (.inr (.inr (.inr (.inr (.inl ⟨.enc, .pre, rfl, hk, ht⟩))))))
    · simp_all
  | strDecPre =>
    obtain ⟨hk, ht⟩ | ⟨hk, ht⟩ := stream .dec .pre h
    · exact .inr (.inr (.inr (.inr (.inr (.inr (.inl ⟨.dec, .pre, rfl, hk, ht⟩))))))
    · simp_all
  | strEncFus =>
    obtain ⟨hk, ht⟩ | ⟨hk, ht⟩ := stream .enc .fus h
    · exact .inr (.inr (.inr (.inr (.inr (.inr (.inl ⟨.enc, .fus, rfl, hk, ht⟩))))))
    · simp_all
  | strDecFus =>
    obtain ⟨hk, ht⟩ | ⟨hk, ht⟩ := stream .dec .fus h
    · exact .inr (.inr (.inr (.inr (.inr (.inr (.inl ⟨.dec, .fus, rfl, hk, ht⟩))))))
    · simp_all
  | srst => simp_all

/-! The register bus (20_memory.md R80, R81). -/

/-- What a read leaves behind: nothing, an error, or one free value used. -/
theorem busRead_cases (off : Offset) (s : State) :
    (busRead off s).2 = s ∨ (s.err = false ∧ s.rstN = true ∧ (busRead off s).2 = s.raiseError .badAccess) ∨
      (busRead off s).2 = s.nextDraw := by
  unfold busRead State.badRead
  cases hn : s.rstN <;> cases he : s.err <;> simp
  all_goals
    split
    · simp
    · split
      · simp
      · dsimp only
        split <;> simp

theorem isSrst_eq_false {off : Offset} {v : Word} (h : ¬ (off = 0x000#12 ∧ v = 0x00000000000000FF#64)) :
    isSrst off v = false := by
  simp only [isSrst, Bool.and_eq_false_iff, beq_eq_false_iff_ne]
  exact Decidable.not_and_iff_or_not.1 h

/-- What an answered write did, in the order of its checks (R266). -/
theorem busWrite_cases {off : Offset} {v : Word} (h : busWrite off v s = .next t) :
    (s.rstN = false ∧ t = s) ∨
    (s.rstN = true ∧ isSrst off v = true ∧ t = s.resetCore) ∨
    (s.rstN = true ∧ isSrst off v = false ∧ s.err = true ∧ t = s) ∨
    (s.rstN = true ∧ isSrst off v = false ∧ s.err = false ∧
      ((t = s.raiseError .badAccess) ∨
       (s.busy = true ∧ t = s.raiseError .busyWrite) ∨
       (s.busy = false ∧ Reg.ofOffset off = some .cmd ∧ issue v s = .next t) ∨
       (∃ r, s.busy = false ∧ Reg.ofOffset off = some r ∧ r.writable = true ∧ r ≠ .cmd ∧ t = s.writeReg v r))) := by
  unfold busWrite at h
  cases hn : s.rstN with
  | false => simp_all
  | true =>
    cases hs : isSrst off v with
    | true => simp_all
    | false =>
      cases he : s.err with
      | true => simp_all
      | false =>
        refine .inr (.inr (.inr ⟨rfl, rfl, rfl, ?_⟩))
        simp only [hn, hs, he, Bool.true_eq_false, Bool.false_eq_true, if_false] at h
        split at h
        · simp_all
        · rename_i r hr
          split at h
          · simp_all
          · split at h
            · simp_all
            · rename_i hw hb
              have hb' : s.busy = false := by simpa using hb
              split at h
              · rename_i hc
                subst hc
                exact .inr (.inr (.inl ⟨hb', hr, h⟩))
              · rename_i hc
                cases h
                exact .inr (.inr (.inr ⟨r, hb', hr, by simpa using hw, hc, rfl⟩))

/-- An issued word runs its command or raises ILLEGAL_CMD (R101). -/
theorem issue_cases {v : Word} (h : issue v s = .next t) :
    (∃ i, decode v = .ok i ∧ exec i s = .next t) ∨ t = s.raiseError .illegalCmd := by
  unfold issue at h
  split at h
  · exact .inl ⟨_, ‹_›, h⟩
  · cases h; exact .inr rfl

/-! One transition. -/

theorem step_nil (h : s.pending = []) : step s = .next s.coreTurn := by
  simp [step, h]

theorem step_cons {e : HostEvent} {rest : List HostEvent} (h : s.pending = e :: rest) :
    step s = hostEvent e { s with pending := rest } := by
  simp [step, h]

end Sys2Proof.Machine
end

