-- ==== Sys2Proof/Laws/Bytes.lean ====
section
/-! SUPPORT. The numeric value of little-endian bytes (20_memory.md R72), for proofs about either byte order. -/

namespace Sys2Proof.Machine

/-- `Σ c[j]·2^(8j)` as a natural number. -/
def leNat : List Byte → Nat
  | [] => 0
  | c :: cs => c.toNat + 256 * leNat cs

theorem leNat_lt (cs : List Byte) : leNat cs < 256 ^ cs.length := by
  induction cs with
  | nil => simp [leNat]
  | cons c cs ih =>
    have hc := c.isLt
    simp only [leNat, List.length_cons, Nat.pow_succ]
    omega

/-- Up to eight bytes the word holds the whole sum. -/
theorem leWord_toNat (cs : List Byte) (h : cs.length ≤ 8) : (leWord cs).toNat = leNat cs := by
  induction cs with
  | nil => rfl
  | cons c cs ih =>
    have hl : cs.length ≤ 7 := by rw [List.length_cons] at h; omega
    have hc := c.isLt
    have hlt : leNat cs < 256 ^ 7 := Nat.lt_of_lt_of_le (leNat_lt cs) (Nat.pow_le_pow_right (by omega) hl)
    simp only [leWord, leNat, BitVec.toNat_add, BitVec.toNat_setWidth, BitVec.toNat_shiftLeft, ih (by omega),
      Nat.shiftLeft_eq]
    omega

theorem leBytes_length (w : Word) : (leBytes w).length = 8 := by simp [leBytes]

theorem bytesOfWord_length (bo : ByteOrder) (w : Word) : (bytesOfWord bo w).length = 8 := by
  cases bo <;> simp [bytesOfWord, leBytes_length]

theorem bytesOfBlock_length (bo : ByteOrder) (b : Block) : (bytesOfBlock bo b).length = 16 := by
  simp [bytesOfBlock, bytesOfWord_length]

/-- The value of one byte of a word. -/
theorem leByte_toNat (w : Word) (j : Nat) : (leByte w j).toNat = w.toNat / 2 ^ (8 * j) % 256 := by
  simp [leByte, BitVec.extractLsb'_toNat, Nat.shiftRight_eq_div_pow]

theorem leBytes_leWord (c : List Byte) (h : c.length = 8) : leBytes (leWord c) = c := by
  match c, h with
  | [a0, a1, a2, a3, a4, a5, a6, a7], _ =>
    have hw := leWord_toNat [a0, a1, a2, a3, a4, a5, a6, a7] (by simp)
    have hb := leByte_toNat (leWord [a0, a1, a2, a3, a4, a5, a6, a7])
    simp only [leNat] at hw
    simp only [hw] at hb
    have i0 := a0.isLt; have i1 := a1.isLt; have i2 := a2.isLt; have i3 := a3.isLt
    have i4 := a4.isLt; have i5 := a5.isLt; have i6 := a6.isLt; have i7 := a7.isLt
    show [leByte _ 0, leByte _ 1, leByte _ 2, leByte _ 3, leByte _ 4, leByte _ 5, leByte _ 6, leByte _ 7] = _
    simp only [List.cons.injEq, and_true]
    refine ⟨?_, ?_, ?_, ?_, ?_, ?_, ?_, ?_⟩ <;>
    · apply BitVec.eq_of_toNat_eq
      rw [hb]
      omega

/-- Writing back the words of a 16-byte chunk gives its bytes (R72, R73). -/
theorem bytesOfBlock_blockOfChunk (bo : ByteOrder) (c : List Byte) (h : c.length = 16) :
    bytesOfBlock bo (blockOfChunk bo c) = c := by
  have key : ∀ c : List Byte, c.length = 8 → bytesOfWord bo (wordOfBytes bo c) = c := by
    intro c h
    cases bo
    · exact leBytes_leWord c h
    · simp [bytesOfWord, wordOfBytes, leBytes_leWord c.reverse (by simpa using h)]
  simp only [bytesOfBlock, blockOfChunk]
  rw [key _ (by simp [h]), key _ (by simp [h]), List.take_append_drop]

/-- The 64-bit rotations are the bit-vector library's (00_scope.md R16). -/
theorem rotr64_eq (v : Word) (n : Nat) (h : n < 64) : rotr64 v n = v.rotateRight n := by
  simp [rotr64, BitVec.rotateRight, BitVec.rotateRightAux, Nat.mod_eq_of_lt h]

theorem rotl64_eq (v : Word) (n : Nat) (h : n < 64) : rotl64 v n = v.rotateLeft n := by
  simp [rotl64, BitVec.rotateLeft, BitVec.rotateLeftAux, Nat.mod_eq_of_lt h]

end Sys2Proof.Machine
end

