-- ==== Sys2Proof/Laws/PerInstr.lean ====
section
/-! SUPPORT. Facts about each command as syntax, one lemma per constructor. -/

namespace Sys2Proof.Laws.EncodeFields

/-- The command is well formed, so are its fields, and the fields read off its word are those fields
(30_encoding.md R100, R103, R104). -/
def Statement (i : Instr) : Prop :=
  i.wf = true ∧ i.fields.wf = true ∧ CmdFields.ofWord (encode i) = i.fields

theorem nop : Statement .nop := by unfold Statement; decide
theorem rndF : Statement .rndF := by unfold Statement; decide
theorem rndI : Statement .rndI := by unfold Statement; decide
theorem ksExp : Statement .ksExp := by unfold Statement; decide
theorem blkEncPre : Statement .blkEncPre := by unfold Statement; decide
theorem blkDecPre : Statement .blkDecPre := by unfold Statement; decide
theorem blkEncFus : Statement .blkEncFus := by unfold Statement; decide
theorem blkDecFus : Statement .blkDecFus := by unfold Statement; decide
theorem strEncPre : Statement .strEncPre := by unfold Statement; decide
theorem strDecPre : Statement .strDecPre := by unfold Statement; decide
theorem strEncFus : Statement .strEncFus := by unfold Statement; decide
theorem strDecFus : Statement .strDecFus := by unfold Statement; decide
theorem srst : Statement .srst := by unfold Statement; decide

end Sys2Proof.Laws.EncodeFields
end

