-- ==== Sys2Proof/Laws/Step.lean ====
section
/-! SUPPORT. The register map read backwards, and what one transition can do to the core, said once. -/

namespace Sys2Proof

theorem Reg.ofOffset_offset (r : Reg) : Reg.ofOffset r.offset = some r := by
  cases r with
  | rk i => revert i; decide
  | _ => decide

theorem Reg.offset_of_ofOffset {off : Offset} {r : Reg} (h : Reg.ofOffset off = some r) : off = r.offset := by
  unfold Reg.ofOffset at h
  split at h
  · have hlt := off.isLt
    have key : off.toNat = 8 * (off.toNat / 8) := by omega
    unfold Reg.ofSlot at h
    repeat' split at h
    all_goals first
      | cases h; done
      | (cases h
         apply BitVec.eq_of_toNat_eq
         simp only [Reg.offset, BitVec.toNat_ofNat]
         omega)
  · cases h

end Sys2Proof

namespace Sys2Proof.Machine

variable {s t : State}

/-- `s` with the host's side, the pin and the draw counter of `t`: the core's own state is that of `s`. -/
def State.withOutsideOf (s t : State) : State :=
  { s with
    rstN := t.rstN
    input := t.input
    inPtr := t.inPtr
    inEnd := t.inEnd
    inFail := t.inFail
    output := t.output
    outReady := t.outReady
    outFail := t.outFail
    pending := t.pending
    reads := t.reads
    draw := t.draw }

@[simp] theorem State.withOutsideOf_k0 : (s.withOutsideOf t).k0 = s.k0 := rfl
@[simp] theorem State.withOutsideOf_k1 : (s.withOutsideOf t).k1 = s.k1 := rfl
@[simp] theorem State.withOutsideOf_x : (s.withOutsideOf t).x = s.x := rfl
@[simp] theorem State.withOutsideOf_y : (s.withOutsideOf t).y = s.y := rfl
@[simp] theorem State.withOutsideOf_rkin : (s.withOutsideOf t).rkin = s.rkin := rfl
@[simp] theorem State.withOutsideOf_rk : (s.withOutsideOf t).rk = s.rk := rfl
@[simp] theorem State.withOutsideOf_busy : (s.withOutsideOf t).busy = s.busy := rfl
@[simp] theorem State.withOutsideOf_kv0 : (s.withOutsideOf t).kv0 = s.kv0 := rfl
@[simp] theorem State.withOutsideOf_kv1 : (s.withOutsideOf t).kv1 = s.kv1 := rfl
@[simp] theorem State.withOutsideOf_schedValid : (s.withOutsideOf t).schedValid = s.schedValid := rfl
@[simp] theorem State.withOutsideOf_err : (s.withOutsideOf t).err = s.err := rfl
@[simp] theorem State.withOutsideOf_errCode : (s.withOutsideOf t).errCode = s.errCode := rfl
@[simp] theorem State.withOutsideOf_xWritten : (s.withOutsideOf t).xWritten = s.xWritten := rfl
@[simp] theorem State.withOutsideOf_yWritten : (s.withOutsideOf t).yWritten = s.yWritten := rfl
@[simp] theorem State.withOutsideOf_rkinWritten : (s.withOutsideOf t).rkinWritten = s.rkinWritten := rfl
@[simp] theorem State.withOutsideOf_rkWritten : (s.withOutsideOf t).rkWritten = s.rkWritten := rfl
@[simp] theorem State.withOutsideOf_sDir : (s.withOutsideOf t).sDir = s.sDir := rfl
@[simp] theorem State.withOutsideOf_sKMode : (s.withOutsideOf t).sKMode = s.sKMode := rfl
@[simp] theorem State.withOutsideOf_sFinal : (s.withOutsideOf t).sFinal = s.sFinal := rfl
@[simp] theorem State.withOutsideOf_sPend : (s.withOutsideOf t).sPend = s.sPend := rfl
@[simp] theorem State.withOutsideOf_ob : (s.withOutsideOf t).ob = s.ob := rfl
@[simp] theorem State.withOutsideOf_inPos : (s.withOutsideOf t).inPos = s.inPos := rfl
@[simp] theorem State.withOutsideOf_cfg : (s.withOutsideOf t).cfg = s.cfg := rfl
@[simp] theorem State.withOutsideOf_rstN : (s.withOutsideOf t).rstN = t.rstN := rfl
@[simp] theorem State.withOutsideOf_input : (s.withOutsideOf t).input = t.input := rfl
@[simp] theorem State.withOutsideOf_inPtr : (s.withOutsideOf t).inPtr = t.inPtr := rfl
@[simp] theorem State.withOutsideOf_inEnd : (s.withOutsideOf t).inEnd = t.inEnd := rfl
@[simp] theorem State.withOutsideOf_inFail : (s.withOutsideOf t).inFail = t.inFail := rfl
@[simp] theorem State.withOutsideOf_output : (s.withOutsideOf t).output = t.output := rfl
@[simp] theorem State.withOutsideOf_outReady : (s.withOutsideOf t).outReady = t.outReady := rfl
@[simp] theorem State.withOutsideOf_outFail : (s.withOutsideOf t).outFail = t.outFail := rfl
@[simp] theorem State.withOutsideOf_pending : (s.withOutsideOf t).pending = t.pending := rfl

/-- A host read leaves the core alone, or raises BAD_ACCESS (R79, R80). -/
theorem hostRead_cases (off : Offset) (s : State) :
    (hostRead off s = s.withOutsideOf (hostRead off s) ∧ (hostRead off s).pending = s.pending) ∨
    (s.err = false ∧ s.rstN = true ∧
      ∃ r, hostRead off s = { s.raiseError .badAccess with reads := r }) := by
  obtain h | ⟨he, hn, h⟩ | h := busRead_cases off s
  · left; simp [hostRead, h, State.withOutsideOf]
  · right; exact ⟨he, hn, s.reads ++ [(busRead off s).1], by simp [hostRead, h]⟩
  · left; simp [hostRead, h, State.nextDraw, State.withOutsideOf]

/-- A transition is a turn of the core, a reset, a change outside the core, an error raised by a host access, an
accepted register write, or a command. -/
theorem step_cases (h : step s = .next t) :
    (∃ rest, (s.pending = [] ∨ s.pending = .core :: rest) ∧ t = ({ s with pending := rest } : State).coreTurn) ∨
    (s.resets ∧ ∃ rest b, t = { ({ s with pending := rest } : State).resetCore with rstN := b }) ∨
    t = s.withOutsideOf t ∨
    (∃ c p r, s.err = false ∧ s.rstN = true ∧ c ≠ .noError ∧
      t = { ({ s with pending := p } : State).raiseError c with reads := r }) ∨
    (∃ r v rest, s.idle ∧ s.pending = .wr (Reg.offset r) v :: rest ∧
      t = ({ s with pending := rest } : State).writeReg v r) ∨
    (∃ i v rest, s.idle ∧ s.pending = .wr 0x000#12 v :: rest ∧ decode v = .ok i ∧
      exec i { s with pending := rest } = .next t) := by
  cases hp : s.pending with
  | nil =>
    rw [step_nil hp] at h; cases h
    left; refine ⟨[], .inl rfl, ?_⟩
    rw [← hp]
  | cons e rest =>
    rw [step_cons hp] at h
    cases e with
    | rd off =>
      cases h
      obtain ⟨h, -⟩ | ⟨he, hn, r, h⟩ := hostRead_cases off { s with pending := rest }
      · exact .inr (.inr (.inl h))
      · exact .inr (.inr (.inr (.inl ⟨.badAccess, rest, r, he, hn, by decide, h⟩)))
    | wr off v =>
      obtain ⟨hn, rfl⟩ | ⟨hn, hs, rfl⟩ | ⟨hn, hs, he, rfl⟩ |
        ⟨hn, hs, he, rfl | ⟨hb, rfl⟩ | ⟨hb, hr, hi⟩ | ⟨r, hb, hr, hw, hc, rfl⟩⟩ :=
        busWrite_cases (h : busWrite off v _ = _)
      · exact .inr (.inr (.inl rfl))
      · right; left
        simp only [isSrst, Bool.and_eq_true, beq_iff_eq] at hs
        exact ⟨.inr ⟨hn, rest, by rw [hp, hs.1, hs.2]⟩, rest, s.rstN, rfl⟩
      · exact .inr (.inr (.inl rfl))
      · exact .inr (.inr (.inr (.inl ⟨.badAccess, rest, s.reads, he, hn, by decide, rfl⟩)))
      · exact .inr (.inr (.inr (.inl ⟨.busyWrite, rest, s.reads, he, hn, by decide, rfl⟩)))
      · obtain ⟨i, hd, hx⟩ | rfl := issue_cases hi
        · right; right; right; right; right
          exact ⟨i, v, rest, ⟨hn, hb, he⟩, by rw [Reg.offset_of_ofOffset hr]; rfl, hd, hx⟩
        · exact .inr (.inr (.inr (.inl ⟨.illegalCmd, rest, s.reads, he, hn, by decide, rfl⟩)))
      · right; right; right; right; left
        exact ⟨r, v, rest, ⟨hn, hb, he⟩, by rw [Reg.offset_of_ofOffset hr], rfl⟩
    | wait =>
      cases h
      obtain ⟨h, -⟩ | ⟨he, hn, r, h⟩ := hostRead_cases Reg.status.offset { s with pending := rest }
      · right; right; left
        unfold hostWait
        dsimp only
        split
        · rw [h]; rfl
        · exact h
      · right; right; right; left
        unfold hostWait
        dsimp only
        split
        · exact ⟨.badAccess, .core :: .wait :: rest, r, he, hn, by decide, by rw [h]; rfl⟩
        · exact ⟨.badAccess, rest, r, he, hn, by decide, h⟩
    | inBytes bs =>
      simp only [hostEvent, hostInput] at h
      split at h <;> cases h
      exact .inr (.inr (.inl rfl))
    | eos => cases h; exact .inr (.inr (.inl rfl))
    | core => cases h; exact .inl ⟨rest, .inr rfl, rfl⟩
    | outReady b => cases h; exact .inr (.inr (.inl rfl))
    | failIn => cases h; exact .inr (.inr (.inl rfl))
    | failOut m => cases h; exact .inr (.inr (.inl rfl))
    | attach =>
      simp only [hostEvent, hostAttach] at h
      split at h <;> cases h
      exact .inr (.inr (.inl rfl))
    | rstN b =>
      cases b
      · cases h; exact .inr (.inl ⟨.inl ⟨rest, hp⟩, rest, false, rfl⟩)
      · cases h; exact .inr (.inr (.inl rfl))

/-- The core's turn, whether the host gives it or has nothing pending. -/
theorem step_coreNext {rest : List HostEvent} (h : s.coreNext rest) :
    step s = .next ({ s with pending := rest } : State).coreTurn := by
  obtain ⟨hp, rfl⟩ | hp := h
  · rw [step_nil hp, ← hp]
  · rw [step_cons hp]; rfl

/-- A turn of the core leaves the key, the schedule, the byte order and the host's program alone. -/
theorem coreTurn_frame (s : State) :
    s.coreTurn.k0 = s.k0 ∧ s.coreTurn.k1 = s.k1 ∧ s.coreTurn.kv0 = s.kv0 ∧ s.coreTurn.kv1 = s.kv1 ∧
    s.coreTurn.rk = s.rk ∧ s.coreTurn.rkWritten = s.rkWritten ∧ s.coreTurn.schedValid = s.schedValid ∧
    s.coreTurn.cfg = s.cfg ∧ s.coreTurn.rstN = s.rstN ∧ s.coreTurn.pending = s.pending ∧
    s.coreTurn.sKMode = s.sKMode ∧ s.coreTurn.input = s.input := by
  obtain h | ⟨-, h⟩ := State.coreTurn_cases s
  · obtain ⟨-, -, ⟨-, h⟩ | ⟨-, h⟩⟩ := State.streamStep_cases h
    · obtain ⟨m, -, h⟩ | ⟨-, -, h⟩ := State.writePhase_cases h <;> rw [h] <;> simp
    · obtain ⟨-, h⟩ | ⟨-, -, -, h⟩ | ⟨-, -, -, h⟩ := State.readPhase_cases h <;> rw [h] <;> simp
  · rw [h]; simp

end Sys2Proof.Machine
end

