-- ==== Sys2Proof/Laws/Stream.lean ====
section
/-! SUPPORT. When a stream step is enabled, and the ECB transform of a byte sequence chunk by chunk. -/

namespace Sys2Proof.Machine

/-- A stream step is enabled exactly when the port request of its phase can be answered (20_memory.md R84 to R86). -/
theorem State.streamStep_isSome {s : State} : s.streamStep.isSome = true ↔
    s.busy = true ∧ s.err = false ∧
      ((s.sPend = true ∧ (s.outFail ≠ none ∨ s.outReady = true)) ∨
       (s.sPend = false ∧ (s.inFail = true ∨ 16 ≤ s.unread.length ∨ s.inEnd = true))) := by
  have h1 : s.writePhase.isSome = true ↔ ¬ (s.outFail = none ∧ s.outReady = false) := by
    rw [← State.writePhase_eq_none]; cases s.writePhase <;> simp
  have h2 : s.readPhase.isSome = true ↔ ¬ (s.inFail = false ∧ s.unread.length < 16 ∧ s.inEnd = false) := by
    rw [← State.inRead16_eq_none, ← State.readPhase_eq_none]; cases s.readPhase <;> simp
  unfold State.streamStep
  cases hb : s.busy <;> cases he : s.err <;> cases hp : s.sPend <;> simp [h1, h2]
  · cases s.inFail <;> cases s.inEnd <;> simp
  · cases s.outReady <;> simp

/-- With enough fuel for the bytes, the amount does not matter. -/
theorem ecbBlocks_fuel (f : Block → Block) (bo : ByteOrder) (n m : Nat) (bs : List Byte)
    (hn : bs.length ≤ 16 * n) (hm : bs.length ≤ 16 * m) : ecbBlocks f bo n bs = ecbBlocks f bo m bs := by
  induction n generalizing bs m with
  | zero =>
    have : bs = [] := List.length_eq_zero_iff.1 (by omega)
    subst this; cases m <;> simp [ecbBlocks]
  | succ n ih =>
    cases m with
    | zero =>
      have : bs = [] := List.length_eq_zero_iff.1 (by omega)
      subst this; simp [ecbBlocks]
    | succ m =>
      simp only [ecbBlocks]
      split
      · rfl
      · rw [ih m (bs.drop 16) (by simp; omega) (by simp; omega)]

theorem ecb_nil (f : Block → Block) (bo : ByteOrder) : ecb f bo [] = [] := rfl

/-- The first chunk, then the rest. -/
theorem ecb_cons (f : Block → Block) (bo : ByteOrder) {bs : List Byte} (h : bs ≠ []) :
    ecb f bo bs = chunkOut f bo (bs.take 16) ++ ecb f bo (bs.drop 16) := by
  have hl : 0 < bs.length := List.length_pos_iff.2 h
  unfold ecb
  rw [ecbBlocks_fuel f bo bs.length ((bs.drop 16).length + 1) bs (by omega) (by simp; omega)]
  simp [ecbBlocks, h]

end Sys2Proof.Machine
end

