-- ==== Sys2Proof/Tests/Slice0.lean ====
section
/-! SUPPORT. Small tests, each against a value that stands in the spec (95_test_vectors.md by row, or a rule's own
example), and for every statement with hypotheses a state and operands that meet all of them. -/

namespace Sys2Proof.Tests

open Sys2Proof.Machine

/-! ### Decoding: words written out from 30_encoding.md R100 and R104 -/

theorem test_decode_nop : decode 0x0000000000000000#64 = .ok .nop := by decide
theorem test_decode_rndF : decode 0x0000000000000001#64 = .ok .rndF := by decide
theorem test_decode_rndI : decode 0x0000000000000002#64 = .ok .rndI := by decide
theorem test_decode_ksExp : decode 0x0000000000000003#64 = .ok .ksExp := by decide
theorem test_decode_blkEncPre : decode 0x0000000000000010#64 = .ok .blkEncPre := by decide
theorem test_decode_blkDecPre : decode 0x0000000000000011#64 = .ok .blkDecPre := by decide
theorem test_decode_blkEncFus : decode 0x0000000000000012#64 = .ok .blkEncFus := by decide
theorem test_decode_blkDecFus : decode 0x0000000000000013#64 = .ok .blkDecFus := by decide
theorem test_decode_strEncPre : decode 0x0000000000000020#64 = .ok .strEncPre := by decide
theorem test_decode_strDecPre : decode 0x0000000000000021#64 = .ok .strDecPre := by decide
theorem test_decode_strEncFus : decode 0x0000000000000022#64 = .ok .strEncFus := by decide
theorem test_decode_strDecFus : decode 0x0000000000000023#64 = .ok .strDecFus := by decide
theorem test_decode_srst : decode 0x00000000000000FF#64 = .ok .srst := by decide

/-- E-10, E-11, E-12 and the list of R105: each kind of illegal word, by name. -/
theorem test_decode_rejects :
    decode 0x55#64 = .error .commandClass ∧ decode 0x103#64 = .error .reservedBits ∧
    decode 0x14#64 = .error .subField ∧ decode 0x28#64 = .error .subField ∧ decode 0x04#64 = .error .opcode ∧
    decode 0xFE#64 = .error .opcode ∧ decode 0xE0#64 = .error .commandClass ∧
    decode 0x1FF#64 = .error .reservedBits ∧ decode 0x8000000000000000#64 = .error .reservedBits := by decide

theorem test_decodeTableWord :
    decodeTableWord 64 0x13 = some .blkDecFus ∧ decodeTableWord 8 0xFF = some .srst ∧
    decodeTableWord 64 0x103 = none ∧ decodeTableWord 8 0x103 = some .ksExp := by decide

/-! ### WellFormed: an ill-formed term for each check -/

theorem test_wf_sys_reserved : (CmdFields.sys 1#56 0x00#8).wf = false := by decide
theorem test_wf_sys_opcode : (CmdFields.sys 0#56 0x04#8).wf = false := by decide
theorem test_wf_mode_reserved : (CmdFields.mode 1#56 0x1#4 0#2 .pre .enc).wf = false := by decide
theorem test_wf_mode_class : (CmdFields.mode 0#56 0x3#4 0#2 .pre .enc).wf = false := by decide
theorem test_wf_mode_sub : (CmdFields.mode 0#56 0x2#4 1#2 .fus .dec).wf = false := by decide
theorem test_wf_noFormat : (CmdFields.noFormat 0x30#64).wf = false := by decide
theorem test_wf_good : (CmdFields.mode 0#56 0x2#4 0#2 .fus .dec).wf = true := by decide

/-! ### Small states -/

/-- The next state, if there is one. -/
def nextOf (o : Host.Outcome State Fault Refusal) : Option State :=
  match o with
  | .next s => some s
  | .fault _ => none
  | .refused _ => none

/-- Both key words written. -/
def keyed (k0 k1 : Word) : State := { State.reset with k0 := k0, k1 := k1, kv0 := true, kv1 := true }

/-- The reference key of E1. -/
def refKeyed : State := keyed 0x0706050403020100#64 0x0f0e0d0c0b0a0908#64

/-- X, Y and RKIN written. -/
def roundState (x y k : Word) : State :=
  { State.reset.writeBlock ⟨x, y⟩ with rkin := k, rkinWritten := true }

/-- A stream command has started under the reference key. -/
def streaming (d : Dir) (k : KMode) : State := refKeyed.startStream d k

/-- The error state (row E-9: NO_SCHED). -/
def failed : State := refKeyed.raiseError .noSched

/-- The host's next events. -/
def withEvents (s : State) (es : List HostEvent) : State := { s with pending := es }

/-- An input stream of the given bytes, its end marked. -/
def withInput (s : State) (bs : List Byte) : State := { s with input := bs, inEnd := true }

def xy (s : State) : Word × Word := (s.x, s.y)

/-! ### Commands -/

theorem test_nop_keeps_status : (nextOf (exec .nop refKeyed)).map (·.statusWord) = some 0x6#64 := by decide  -- C-1

theorem test_rndF_wraps :  -- F5
    (nextOf (exec .rndF (roundState (-1) (-1) (-1)))).map xy = some (0x1#64, 0xfffffffffffffffe#64) := by decide

theorem test_rndF_mixed :  -- F9
    (nextOf (exec .rndF (roundState 0x0123456789abcdef#64 0xfedcba9876543210#64 0x0f0f0f0f0f0f0f0f#64))).map xy =
      some (0xe2d2d2d2d2d2d2d2#64, 0x1437061160734255#64) := by decide

theorem test_rndI_borrows :  -- I3
    (nextOf (exec .rndI (roundState 1 0 0))).map xy = some (0x1e0#64, 0x2000000000000000#64) := by decide

theorem test_rndI_inverts :  -- I5
    (nextOf (exec .rndI (roundState 0x93d384dfced4df85#64 0x309a87f4eddfb686#64 0x0706050403020100#64))).map xy =
      some (0x6c61766975716520#64, 0x7469206564616d20#64) := by decide

set_option maxRecDepth 10000 in
theorem test_ksExp_reference :  -- E1, rows 0, 1 and 31
    (nextOf (exec .ksExp refKeyed)).map (fun t => (t.rk[0], t.rk[1], t.rk[31], t.statusWord)) =
      some (0x0706050403020100#64, 0x37253b31171d0309#64, 0x2199c870db8ec93f#64, 0xe#64) := by decide

theorem test_ksExp_needs_key :  -- E-7
    (nextOf (exec .ksExp State.reset)).map (·.statusWord) = some 0x210#64 := by decide

set_option maxRecDepth 10000 in
theorem test_blkEncPre :  -- B1
    (nextOf (exec .blkEncPre (refKeyed.loadSchedule.writeBlock ⟨0x6c61766975716520#64, 0x7469206564616d20#64⟩))).map
      xy = some (0xa65d985179783265#64, 0x7860fedf5c570d18#64) := by decide

set_option maxRecDepth 10000 in
theorem test_blkDecPre :  -- D2
    (nextOf (exec .blkDecPre ((keyed 0 0).loadSchedule.writeBlock ⟨0, 0⟩))).map xy =
      some (0x39a5f28a044566c6#64, 0x1da24c285c32918c#64) := by decide

theorem test_blkDecPre_needs_schedule :  -- E-9
    (nextOf (exec .blkDecPre refKeyed)).map (·.statusWord) = some 0x316#64 := by decide

set_option maxRecDepth 10000 in
theorem test_blkEncFus :  -- B5, and R170: SCHED_VALID stays 0
    (nextOf (exec .blkEncFus ((keyed (-1) (-1)).writeBlock ⟨0, 0⟩))).map (fun t => (xy t, t.statusWord)) =
      some ((0x90e6cad792658508#64, 0x0e82f2e31fe7b7b6#64), 0x6#64) := by decide

set_option maxRecDepth 10000 in
theorem test_blkDecFus :  -- D3
    (nextOf (exec .blkDecFus
      ((keyed (-1) (-1)).writeBlock ⟨0x3f35e88fba985eb3#64, 0x8d3b9d66dc74d36a#64⟩))).map xy = some (-1, -1) := by
  decide

theorem test_strEncPre_starts :  -- E-6
    (nextOf (exec .strEncPre refKeyed)).map (fun t => (t.statusWord, t.sDir, t.sKMode)) =
      some (0xf#64, .enc, .pre) := by decide

theorem test_strDecPre_starts :  -- R211
    (nextOf (exec .strDecPre refKeyed)).map (fun t => (t.statusWord, t.sDir, t.sKMode)) =
      some (0xf#64, .dec, .pre) := by decide

theorem test_strEncFus_starts :  -- P5 step 4
    (nextOf (exec .strEncFus refKeyed)).map (fun t => (t.statusWord, t.sDir, t.sKMode)) =
      some (0x7#64, .enc, .fus) := by decide

theorem test_strDecFus_starts :  -- R213
    (nextOf (exec .strDecFus refKeyed)).map (fun t => (t.statusWord, t.sDir, t.sKMode)) =
      some (0x7#64, .dec, .fus) := by decide

theorem test_strEncPre_needs_key :  -- E-8
    (nextOf (exec .strEncPre { State.reset with kv0 := true })).map (·.statusWord) = some 0x212#64 := by decide

theorem test_srst_clears :  -- C-2
    (nextOf (exec .srst failed)).map (fun t => (t.statusWord, t.written .key0)) = some (0#64, false) := by decide

/-! ### Stream steps -/

set_option maxRecDepth 10000 in
theorem test_read_phase_short_chunk :  -- S3, the third phase: 4 bytes 10..13, S_FINAL = 1, and its block
    (nextOf (step (withInput (streaming .enc .pre) [0x10#8, 0x11#8, 0x12#8, 0x13#8]))).map
      (fun t => (t.ob, t.sFinal, t.sPend, t.inPtr)) =
      some (⟨0xea026cd008d2acb9#64, 0xd333eb1381128c20#64⟩, true, true, 4) := by decide

set_option maxRecDepth 10000 in
theorem test_read_phase_big_endian :  -- S4
    (nextOf (step { withInput (streaming .enc .fus) [0x74#8, 0x69#8, 0x20#8, 0x65#8, 0x64#8, 0x61#8, 0x6d#8, 0x20#8,
        0x6c#8, 0x61#8, 0x76#8, 0x69#8, 0x75#8, 0x71#8, 0x65#8, 0x20#8] with cfg := ⟨.be⟩ })).map (·.ob) =
      some ⟨0xa65d985179783265#64, 0x7860fedf5c570d18#64⟩ := by decide

theorem test_write_phase_bytes :  -- S2: y' then x', little-endian; a full chunk leaves BUSY = 1
    (nextOf (step { streaming .enc .pre with
        ob := ⟨0xa65d985179783265#64, 0x7860fedf5c570d18#64⟩, sPend := true })).map
      (fun t => (t.output, t.busy)) =
      some ([0x18#8, 0x0d#8, 0x57#8, 0x5c#8, 0xdf#8, 0xfe#8, 0x60#8, 0x78#8,
        0x65#8, 0x32#8, 0x78#8, 0x79#8, 0x51#8, 0x98#8, 0x5d#8, 0xa6#8], true) := by decide

theorem test_read_failure :  -- E-23
    (nextOf (step { streaming .enc .pre with inFail := true })).map (·.statusWord) = some 0x61e#64 := by decide

theorem test_write_failure :  -- E-24, with m = 3
    (nextOf (step { streaming .enc .fus with sPend := true, outFail := some 3 })).map
      (fun t => (t.statusWord, t.output.length)) = some (0x716#64, 3) := by decide

/-! ### The register bus -/

theorem test_key_write_clears_schedule :  -- E-5
    (nextOf (busWrite 0x018#12 5#64 refKeyed.loadSchedule)).map (fun t => (t.statusWord, t.k1)) =
      some (0x6#64, 5#64) := by decide

theorem test_misaligned_read :  -- E-13
    (busRead 0x004#12 State.reset).1 = 0#64 ∧ (busRead 0x004#12 State.reset).2.statusWord = 0x410#64 := by decide

theorem test_illegal_word :  -- E-11
    (nextOf (busWrite 0x000#12 0x103#64 State.reset)).map (·.statusWord) = some 0x110#64 := by decide

theorem test_nop_while_busy :  -- C-3
    (nextOf (busWrite 0x000#12 0#64 (streaming .enc .pre))).map (·.statusWord) = some 0x51e#64 := by decide

theorem test_ignored_in_error_state :  -- E-19
    (nextOf (busWrite 0x010#12 1#64 (State.reset.raiseError .illegalCmd))).map (·.statusWord) = some 0x110#64 := by
  decide

/-- An event placed by `withFetchWord` is run by the very next step. -/
theorem test_withFetchWord :
    (nextOf (step (State.reset.withFetchWord 64 3))).map (·.statusWord) = some 0x210#64 := by decide

/-- A command that reads unwritten registers goes on (assumption log 2). -/
theorem test_rndF_from_reset : (nextOf (step (State.reset.withFetchWord 64 1))).isSome = true := by decide

/-! ### Witnesses: each statement's hypotheses are met together, clause by clause, at the edges of their ranges

The name says which statement. Where a clause has a register number, an offset, an amount or a count, its edges stand
in the witness. -/

/-- Out of reset, error state and a running stream at once: the states no free core is in. -/
def stuck : State := { streaming .enc .pre with err := true, errCode := .inErr }

theorem witness_IllegalWordRaisesOnlyIllegalCmd :
    ∀ v ∈ [0x04#64, 0x14#64, 0x30#64, 0xF0#64, 0x1FF#64, 0x8000000000000000#64],
      (withEvents refKeyed [.wr 0x000#12 v]).idle ∧ ∀ i : Instr, v ≠ encode i := by
  intro v hv
  refine ⟨⟨rfl, rfl, rfl⟩, fun i => ?_⟩
  simp only [List.mem_cons, List.not_mem_nil, or_false] at hv
  obtain rfl | rfl | rfl | rfl | rfl | rfl := hv <;> cases i <;> decide

theorem witness_StepRunsIssuedCommand :
    (decode 0x3#64 = .ok .ksExp ∧ (withEvents refKeyed [.wr 0x000#12 0x3#64]).idle) ∧
    (decode 0xFF#64 = .ok .srst ∧ (withEvents stuck [.wr 0x000#12 0xFF#64]).rstN = true ∧
      ¬ (withEvents stuck [.wr 0x000#12 0xFF#64]).idle) := by
  refine ⟨⟨by decide, rfl, rfl, rfl⟩, by decide, rfl, fun h => ?_⟩
  cases h.2.1

theorem witness_RotationsLoseNoBits : (0 < 1 ∧ 1 < 64) ∧ (0 < 8 ∧ 8 < 64) ∧ (0 < 63 ∧ 63 < 64) := by decide

theorem witness_RndIUndoesRndF : (roundState 1 0 0).rkinWritten = true ∧ ¬ (roundState 1 0 0).busy := by decide

/-- KsExpCompletes, FusedBlockCommandsComplete, FusedCommandMatchesKsExpThenPrecomputed. -/
theorem witness_key_written : refKeyed.kv0 = true ∧ refKeyed.kv1 = true := by decide

theorem witness_PrecomputedBlockCommandsComplete : refKeyed.loadSchedule.schedValid = true := by decide

theorem witness_NoKeyIsRaised :
    Instr.ksExp ∈ [Instr.ksExp, .blkEncFus, .blkDecFus, .strEncPre, .strDecPre, .strEncFus, .strDecFus] ∧
    (({ refKeyed with kv0 := false } : State).kv0 = false ∧ ({ refKeyed with kv0 := false } : State).kv1 = true) ∧
    (({ refKeyed with kv1 := false } : State).kv0 = true ∧ ({ refKeyed with kv1 := false } : State).kv1 = false) ∧
    State.reset.err = false := by decide

theorem witness_NoSchedIsRaised :
    Instr.blkDecPre ∈ [Instr.blkEncPre, .blkDecPre] ∧ refKeyed.schedValid = false ∧ refKeyed.err = false := by decide

theorem witness_NopChangesNothing :
    (withEvents refKeyed [stmtCMD .nop]).idle ∧
    (withEvents refKeyed [stmtCMD .nop]).pending = .wr 0x000#12 0x0000000000000000#64 :: [] :=
  ⟨⟨rfl, rfl, rfl⟩, by decide⟩

theorem witness_SrstResetsInEveryState :
    (withEvents stuck [stmtCMD .srst]).rstN = true ∧ stuck.err = true ∧ stuck.busy = true ∧
    (withEvents stuck [stmtCMD .srst]).pending = .wr 0x000#12 0x00000000000000FF#64 :: [] := by decide

theorem witness_RstNResetsAndHolds :
    (withEvents stuck [.rstN false]).pending = .rstN false :: [] ∧
    ({ State.reset with rstN := false } : State).rstN = false ∧
    (withEvents { State.reset with rstN := false } [.rstN true]).pending = .rstN true :: [] := by decide

theorem witness_PrecomputedStreamStartCompletes :
    (Instr.strEncPre, Dir.enc) ∈ [(Instr.strEncPre, Dir.enc), (Instr.strDecPre, Dir.dec)] ∧
    (Instr.strDecPre, Dir.dec) ∈ [(Instr.strEncPre, Dir.enc), (Instr.strDecPre, Dir.dec)] ∧
    refKeyed.kv0 = true ∧ refKeyed.kv1 = true := by decide

theorem witness_FusedStreamStartCompletes :
    (Instr.strEncFus, Dir.enc) ∈ [(Instr.strEncFus, Dir.enc), (Instr.strDecFus, Dir.dec)] ∧
    (Instr.strDecFus, Dir.dec) ∈ [(Instr.strEncFus, Dir.enc), (Instr.strDecFus, Dir.dec)] ∧
    refKeyed.kv0 = true ∧ refKeyed.kv1 = true := by decide

/-- The core's turn is next: the host has nothing pending, or gives it the turn between other events. -/
def turns : List (List HostEvent × List HostEvent) := [([], []), ([.core, .wait], [.wait])]

/-- Each latched mode, at 1, 15, 16 and 17 unread bytes; with 16 or more the end need not be marked. -/
theorem witness_ReadPhaseHoldsTransformedChunk :
    ∀ w ∈ turns, ∀ d ∈ [Dir.enc, .dec], ∀ k ∈ [KMode.pre, .fus], ∀ n ∈ [1, 15, 16, 17],
      let s : State :=
        { withEvents (streaming d k) w.1 with input := List.replicate n 0xff#8, inEnd := decide (n < 16) }
      s.coreNext w.2 ∧ s.busy = true ∧ s.err = false ∧ s.sPend = false ∧ s.inFail = false ∧
        (16 ≤ s.unread.length ∨ s.inEnd = true) ∧ s.unread.take 16 ≠ [] ∧ s.sDir = d ∧ s.sKMode = k := by
  decide

theorem witness_EmptyReadEndsStream :
    ∀ w ∈ turns,
      let s := withInput (withEvents (streaming .enc .pre) w.1) []
      s.coreNext w.2 ∧ s.busy = true ∧ s.err = false ∧ s.sPend = false ∧ s.inFail = false ∧ s.inEnd = true ∧
        s.unread = [] := by decide

/-- A block pending after a full chunk, and after the short one. -/
theorem witness_AcceptedWritePhaseCompletes :
    ∀ w ∈ turns, ∀ f ∈ [false, true],
      let s : State := { withEvents (streaming .dec .fus) w.1 with sPend := true, sFinal := f }
      s.coreNext w.2 ∧ s.busy = true ∧ s.err = false ∧ s.sPend = true ∧ s.outFail = none ∧ s.outReady = true := by
  decide

theorem witness_PortFailureAbortsStream :
    ∀ w ∈ turns,
      (let s : State := { withEvents (streaming .enc .pre) w.1 with inFail := true }
       s.coreNext w.2 ∧ s.busy = true ∧ s.err = false ∧ s.sPend = false ∧ s.inFail = true) ∧
      ∀ m ∈ [(0 : Fin 17), 1, 15, 16],
        let s : State := { withEvents (streaming .enc .pre) w.1 with sPend := true, outFail := some m }
        s.coreNext w.2 ∧ s.busy = true ∧ s.err = false ∧ s.sPend = true ∧ s.outFail = some m := by decide

theorem witness_StreamIsHeldWithoutAnswer :
    ∀ w ∈ turns,
      ((withEvents refKeyed w.1).coreNext w.2 ∧ refKeyed.busy = false) ∧
      ((withEvents failed w.1).coreNext w.2 ∧ failed.err = true) ∧
      (let s : State := { withEvents (streaming .enc .pre) w.1 with input := List.replicate 15 0#8 }
       s.coreNext w.2 ∧ s.busy = true ∧ s.err = false ∧ s.sPend = false ∧ s.inFail = false ∧
         s.unread.length < 16 ∧ s.inEnd = false) ∧
      (let s : State := { withEvents (streaming .enc .pre) w.1 with sPend := true, outReady := false }
       s.coreNext w.2 ∧ s.busy = true ∧ s.err = false ∧ s.sPend = true ∧ s.outFail = none ∧ s.outReady = false) := by
  decide

/-- StreamCommandComputesEcb, StreamOutputLength and the runs of EcbBlocksAreIndependent, at 0, 1, 16 and 17 unread
bytes. -/
theorem witness_stream_command :
    ∀ n ∈ [0, 1, 16, 17],
      let s := withEvents (withInput refKeyed (List.replicate n 0#8)) [stmtCMD (streamInstr .dec .fus)]
      s.rstN = true ∧ s.busy = false ∧ s.err = false ∧ s.kv0 = true ∧ s.kv1 = true ∧
        s.pending = [stmtCMD (streamInstr .dec .fus)] ∧ s.inEnd = true ∧ s.inFail = false ∧ s.outReady = true ∧
        s.outFail = none ∧ s.unread.length = n ∧ s.k0 = 0x0706050403020100#64 ∧ s.k1 = 0x0f0e0d0c0b0a0908#64 ∧
        s.cfg.byteOrder = .le := by decide

theorem witness_StreamRoundTripReturnsPaddedInput :
    ∀ n ∈ [0, 1, 16, 20],
      let p := List.replicate n 0x41#8
      let s := withEvents refKeyed [.attach, .inBytes p, .eos, stmtCMD (streamInstr .enc .pre)]
      s.rstN = true ∧ s.busy = false ∧ s.err = false ∧ s.kv0 = true ∧ s.kv1 = true ∧ s.outReady = true ∧
        s.pending = [.attach, .inBytes p, .eos, stmtCMD (streamInstr .enc .pre)] := by decide

theorem witness_EcbBlocksAreIndependent :
    ([] : List Byte).length % 16 = 0 ∧ (List.replicate 16 0#8).length % 16 = 0 ∧
    (List.replicate 32 0#8).length % 16 = 0 ∧
    (List.replicate 1 0#8 ≠ [] ∧ (List.replicate 1 0#8).length ≤ 16) ∧
    (List.replicate 16 0#8 ≠ [] ∧ (List.replicate 16 0#8).length ≤ 16) := by decide

theorem witness_ChunkWordsLayout : (List.replicate 16 0xa5#8).length = 16 := by decide

/-- StatusFieldLayout: each error code stands in a state. -/
theorem witness_StatusFieldLayout :
    ∀ c ∈ [ErrCode.noError, .illegalCmd, .noKey, .noSched, .badAccess, .busyWrite, .inErr, .outErr],
      ({ failed with errCode := c } : State).errCode = c := by decide

theorem witness_HostEventsAreSteps :
    ((withEvents refKeyed [stmtRD .key0]).pending = .rd 0x010#12 :: [] ∧
      (withEvents refKeyed [stmtWR .x 3]).pending = .wr 0x020#12 3#64 :: []) ∧
    (∀ s ∈ [refKeyed, streaming .enc .pre], (withEvents s [.wait]).pending = .wait :: [] ∧ s.rstN = true) ∧
    ((withEvents refKeyed [.inBytes [1#8]]).pending = .inBytes [1#8] :: [] ∧ refKeyed.inEnd = false ∧
      (withInput refKeyed []).inEnd = true) ∧
    ((withEvents refKeyed [.attach]).pending = .attach :: [] ∧ refKeyed.busy = false ∧
      (streaming .enc .pre).busy = true) ∧
    (∀ ready ∈ [false, true],
      (withEvents refKeyed [.outReady ready]).pending = .outReady ready :: [] ∧
      (let s : State := { streaming .enc .pre with sPend := true }
       s.busy = true ∧ s.sPend = true ∧ s.outReady = true) ∧
      refKeyed.busy = false ∧ (streaming .enc .pre).sPend = false ∧
      ({ refKeyed with outReady := false } : State).outReady = false) ∧
    (withEvents refKeyed [.eos]).pending = .eos :: [] ∧ (withEvents refKeyed [.failIn]).pending = .failIn :: [] ∧
    (∀ m ∈ [(0 : Fin 17), 16], (withEvents refKeyed [.failOut m]).pending = .failOut m :: []) := by decide

theorem witness_GoodReadReturnsRegister :
    let s : State := { refKeyed.loadSchedule.writeBlock ⟨1, 2⟩ with rkinWritten := true }
    s.rstN = true ∧ s.kv0 = true ∧ s.kv1 = true ∧ s.xWritten = true ∧ s.yWritten = true ∧ s.rkinWritten = true ∧
      s.rkWritten = true ∧ (Reg.rk 0).offset = 0x040#12 ∧ (Reg.rk 31).offset = 0x138#12 := by decide

theorem witness_UnwrittenReadIsFree :
    ∀ r ∈ [Reg.key0, .key1, .x, .y, .rkin, .rk 0, .rk 31],
      State.reset.rstN = true ∧ r ≠ .cmd ∧ State.reset.written r = false := by decide

theorem witness_BadAccessIsRaised :
    State.reset.rstN = true ∧ State.reset.err = false ∧
    ([0x001#12, 0x007#12, 0x139#12, 0xFFF#12, 0x000#12, 0x038#12, 0x140#12, 0xFF8#12] : List Offset).all (fun off =>
      decide (off.toNat % 8 ≠ 0 ∨ off = 0x000#12 ∨ off = 0x038#12 ∨ 0x140 ≤ off.toNat)) = true ∧
    ([0x001#12, 0x037#12, 0x008#12, 0x038#12, 0x040#12, 0x138#12, 0x140#12, 0xFF8#12] : List Offset).all (fun off =>
      decide (off.toNat % 8 ≠ 0 ∨ off = 0x008#12 ∨ off = 0x038#12 ∨ 0x040 ≤ off.toNat)) = true := by decide

/-- RegisterWritesTakeEffect. -/
theorem witness_free_core : refKeyed.loadSchedule.idle := ⟨rfl, rfl, rfl⟩

theorem witness_BusyWriteAbortsStream :
    let s := streaming .enc .fus
    s.rstN = true ∧ s.err = false ∧ s.busy = true ∧
    0x000#12 ∈ [0x000#12, 0x010#12, 0x018#12, 0x020#12, 0x028#12, 0x030#12] ∧
    0x030#12 ∈ [0x000#12, 0x010#12, 0x018#12, 0x020#12, 0x028#12, 0x030#12] ∧
    ¬ (0x000#12 = 0x000#12 ∧ 0x1FF#64 = 0x00000000000000FF#64) ∧
    ¬ (0x030#12 = 0x000#12 ∧ 0xFF#64 = 0x00000000000000FF#64) := by decide

theorem witness_ErrorStateIgnoresAccesses :
    failed.rstN = true ∧ failed.err = true ∧
    ¬ (0x000#12 = 0x000#12 ∧ 0x3#64 = 0x00000000000000FF#64) ∧
    ¬ (0x010#12 = 0x000#12 ∧ 0xFF#64 = 0x00000000000000FF#64) ∧
    ([0x001#12, 0x000#12, 0x038#12, 0x140#12, 0xFF8#12] : List Offset).all (fun off =>
      decide (off.toNat % 8 ≠ 0 ∨ off = 0x000#12 ∨ off = 0x038#12 ∨ 0x140 ≤ off.toNat)) = true := by decide

theorem witness_FirstErrorIsKept : refKeyed.err = false ∧ failed.err = true := by decide

/-- In the error state a reset, and a write that is ignored, each take a step. -/
theorem witness_OnlyResetLeavesErrorState :
    failed.err = true ∧
    step (withEvents failed [stmtCMD .srst]) = .next (withEvents failed []).resetCore ∧
    step (withEvents failed [stmtCMD .ksExp]) = .next (withEvents failed []) := ⟨rfl, rfl, rfl⟩

/-- KeysChangeOnlyByHostWrite: a step that is no reset, on each key register. -/
theorem witness_KeysChangeOnlyByHostWrite :
    ∀ r ∈ [Reg.key0, .key1],
      ((nextOf (step (withEvents refKeyed [stmtWR r 5]))).map fun t => (t.k0 == 5#64, t.k1 == 5#64)) =
          some (r == .key0, r == .key1) ∧
      ¬ (withEvents refKeyed [stmtWR r 5]).resets := by
  intro r hr
  refine ⟨by revert r; decide, ?_⟩
  simp only [List.mem_cons, List.not_mem_nil, or_false] at hr
  rintro (⟨rest, h⟩ | ⟨-, rest, h⟩) <;> obtain rfl | rfl := hr <;> simp [withEvents, stmtWR, Reg.offset] at h

/-- RkChangesOnlyByExpansion and SchedValidChangesOnlyAsListed: a step that is no reset and sets SCHED_VALID, one that
clears it. -/
theorem witness_schedule_changes :
    (nextOf (step (withEvents refKeyed [stmtCMD .ksExp]))).map (·.schedValid) = some true ∧
    refKeyed.schedValid = false ∧ refKeyed.idle ∧ refKeyed.loadSchedule.idle ∧
    ¬ (withEvents refKeyed [stmtCMD .ksExp]).resets ∧
    (nextOf (step (withEvents refKeyed.loadSchedule [stmtWR .key0 1]))).map (·.schedValid) = some false ∧
    refKeyed.loadSchedule.schedValid = true := by
  refine ⟨by decide, by decide, ⟨rfl, rfl, rfl⟩, ⟨rfl, rfl, rfl⟩, ?_, by decide, by decide⟩
  rintro (⟨rest, h⟩ | ⟨-, rest, h⟩)
  · simp [withEvents, stmtCMD] at h
  · simp [withEvents, stmtCMD, Reg.offset, encode, Instr.fields, CmdFields.toWord] at h

/-- InvariantIsKeptByEveryStep: a state that meets the invariant, in a running precomputed stream with a block pending
after a short chunk, and takes a step. -/
theorem witness_InvariantIsKeptByEveryStep :
    ({ streaming .enc .pre with sPend := true, sFinal := true } : State).Inv ∧
    (nextOf (step { streaming .enc .pre with sPend := true, sFinal := true })).isSome = true := by
  refine ⟨?_, by decide⟩
  constructor
  case schedule => exact fun _ => ⟨rfl, rfl, rfl, rfl⟩
  all_goals decide

/-- ValidScheduleIsTheKeysExpansion: a state with a valid schedule that takes a step and still has it. -/
theorem witness_ValidScheduleIsTheKeysExpansion :
    (∀ i : Fin 32, refKeyed.loadSchedule.rk[i.val] =
      (expand refKeyed.loadSchedule.k0 refKeyed.loadSchedule.k1)[i.val]) ∧
    (nextOf (step (withEvents refKeyed.loadSchedule [stmtWR .x 1]))).map (·.schedValid) = some true :=
  ⟨fun _ => rfl, by decide⟩

/-- ByteOrderNeverChanges: a step in each byte order. -/
theorem witness_ByteOrderNeverChanges :
    ∀ bo ∈ [ByteOrder.le, .be],
      (nextOf (step { withInput (streaming .enc .fus) [1#8] with cfg := ⟨bo⟩ })).isSome = true := by decide

/-- EnabledStreamStepStaysEnabled: an enabled read step under a good read, one ended by a refused write, and an enabled
write step whose acceptance the host takes back. -/
theorem witness_EnabledStreamStepStaysEnabled :
    let r := withInput (streaming .enc .pre) [1#8]
    let w : State := { streaming .enc .pre with sPend := true }
    (withEvents r [stmtRD .status]).streamStep.isSome = true ∧
    (withEvents r [stmtWR .x 0]).streamStep.isSome = true ∧
    (withEvents w [.outReady false]).streamStep.isSome = true ∧
    HostEvent.outReady false ≠ .core ∧ stmtRD .status ≠ .core ∧ stmtWR .x 0 ≠ .core ∧
    (nextOf (step (withEvents r [stmtRD .status]))).isSome = true ∧
    (nextOf (step (withEvents r [stmtWR .x 0]))).isSome = true ∧
    (nextOf (step (withEvents w [.outReady false]))).isSome = true := by decide

/-- StreamsAreNeverRolledBack: a step that consumes, one that appends, neither an attachment. -/
theorem witness_StreamsAreNeverRolledBack :
    (nextOf (step (withInput (streaming .enc .fus) [1#8]))).map (·.inPtr) = some 1 ∧
    (nextOf (step { streaming .enc .fus with sPend := true })).map (·.output.length) = some 16 ∧
    ∀ rest, (withInput (streaming .enc .fus) [1#8]).pending ≠ .attach :: rest :=
  ⟨by decide, by decide, fun _ h => by cases h⟩

/-- BusyFallsOnlyAtStreamEndErrorOrReset: BUSY falls by an empty read, by the final write, by an error, by a reset. -/
theorem witness_BusyFallsOnlyAtStreamEndErrorOrReset :
    (streaming .enc .pre).busy = true ∧
    (nextOf (step (withInput (streaming .enc .pre) []))).map (·.busy) = some false ∧
    (nextOf (step { streaming .enc .pre with sPend := true, sFinal := true })).map (·.busy) = some false ∧
    (nextOf (step (withEvents (streaming .enc .pre) [stmtWR .x 0]))).map (·.busy) = some false ∧
    (nextOf (step (withEvents (streaming .enc .pre) [stmtCMD .srst]))).map (·.busy) = some false := by decide

/-- The states after a key write over a valid schedule, then a NOP, then the block command. -/
def staleRun (r : Reg) (i : Instr) : Nat → State
  | 0 => withEvents refKeyed.loadSchedule [stmtWR r 7, stmtCMD .nop, stmtCMD i]
  | 1 => withEvents (refKeyed.loadSchedule.writeReg 7 r) [stmtCMD .nop, stmtCMD i]
  | _ + 2 => withEvents (refKeyed.loadSchedule.writeReg 7 r) [stmtCMD i]

theorem witness_StaleScheduleIsNeverUsed :
    ∀ r ∈ [Reg.key0, .key1], ∀ i ∈ [Instr.blkEncPre, .blkDecPre],
      (staleRun r i 0).idle ∧ (staleRun r i 0).pending = stmtWR r 7 :: [stmtCMD .nop, stmtCMD i] ∧
      (∀ j, j ≤ 1 → step (staleRun r i j) = .next (staleRun r i (j + 1))) ∧
      (∀ j, 0 < j → j ≤ 1 → ∀ e ∈ [Instr.ksExp, .strEncPre, .strDecPre], ∀ q,
        (staleRun r i j).pending ≠ stmtCMD e :: q) ∧
      (staleRun r i 2).pending = stmtCMD i :: [] ∧ (staleRun r i 2).idle := by
  intro r hr i _
  simp only [List.mem_cons, List.not_mem_nil, or_false] at hr
  have hnop : ∀ e ∈ [Instr.ksExp, .strEncPre, .strDecPre], stmtCMD .nop ≠ stmtCMD e := by decide
  obtain rfl | rfl := hr <;>
  · refine ⟨⟨rfl, rfl, rfl⟩, rfl, ?_, ?_, rfl, ⟨rfl, rfl, rfl⟩⟩
    · intro j hj
      obtain rfl | rfl : j = 0 ∨ j = 1 := by omega
      · rfl
      · rfl
    · intro j h0 h1 e he q h
      obtain rfl : j = 1 := by omega
      exact hnop e he (List.cons.inj h).1

end Sys2Proof.Tests
end

namespace Sys2Proof.Machine

variable {s t : State}

/-! O55: whenever SCHED_VALID = 1, RK is the expansion of the key (10_state.md R38). -/

/-- What a transition from `s` to `t` may do to the key and its schedule (10_state.md R33, R37, R38, R43): leave them
alone, end without a valid schedule, or end with the expansion of the key in RK. -/
inductive ScheduleUpdate (s t : State) : Prop where
  | kept (k0 : t.k0 = s.k0) (k1 : t.k1 = s.k1) (rk : t.rk = s.rk) (valid : t.schedValid = s.schedValid)
  | invalid (valid : t.schedValid = false)
  | expanded (rk : t.rk = expand t.k0 t.k1)

/-- Taking the host's next event off its list is no update of the schedule. -/
theorem ScheduleUpdate.of_pending {rest : List HostEvent} (h : ScheduleUpdate { s with pending := rest } t) :
    ScheduleUpdate s t := by
  cases h with
  | kept k0 k1 rk valid => exact .kept k0 k1 rk valid
  | invalid valid => exact .invalid valid
  | expanded rk => exact .expanded rk

/-- A key write clears SCHED_VALID; every other register write leaves key and schedule alone (R33). -/
theorem writeReg_scheduleUpdate (s : State) (v : Word) (r : Reg) : ScheduleUpdate s (s.writeReg v r) := by
  cases r with
  | key0 | key1 => exact .invalid rfl
  | cmd | status | x | y | rkin | rk _ => exact .kept rfl rfl rfl rfl

/-- A precomputed stream expands the key at its start; a fused one leaves key and schedule alone (R202). -/
theorem startStream_scheduleUpdate (s : State) (d : Dir) (k : KMode) : ScheduleUpdate s (s.startStream d k) := by
  cases k with
  | pre => exact .expanded rfl
  | fus => exact .kept rfl rfl rfl rfl

/-- The core's turn leaves key and schedule alone: a running stream only reads them (R204). -/
theorem coreTurn_scheduleUpdate (s : State) : ScheduleUpdate s s.coreTurn := by
  obtain ⟨hk0, hk1, -, -, hrk, -, hvalid, -⟩ := coreTurn_frame s
  exact .kept hk0 hk1 hrk hvalid

/-- Among the commands only KS_EXP and the start of a stream can expand the key, and only SRST discards it. -/
theorem exec_scheduleUpdate {i : Instr} (h : exec i s = .next t) : ScheduleUpdate s t := by
  obtain ⟨-, rfl⟩ | ⟨_, -, rfl⟩ | ⟨-, -, rfl⟩ | ⟨_, -, -, rfl⟩ | ⟨_, -, -, rfl⟩ | ⟨_, -, -, rfl⟩ |
    ⟨d, k, -, -, rfl⟩ | ⟨-, rfl⟩ | ⟨-, rfl⟩ | ⟨-, rfl⟩ := exec_cases h
  · exact .kept rfl rfl rfl rfl -- NOP
  · exact .kept rfl rfl rfl rfl -- RND_F, RND_I
  · exact .expanded rfl -- KS_EXP
  · exact .kept rfl rfl rfl rfl -- BLK_ENC_PRE, BLK_DEC_PRE
  · exact .kept rfl rfl rfl rfl -- BLK_ENC_FUS
  · exact .kept rfl rfl rfl rfl -- BLK_DEC_FUS
  · exact startStream_scheduleUpdate s d k
  · exact .kept rfl rfl rfl rfl -- NO_KEY
  · exact .kept rfl rfl rfl rfl -- NO_SCHED
  · exact .invalid rfl -- SRST

/-- Every transition updates the schedule in one of the three ways. -/
theorem step_scheduleUpdate (h : step s = .next t) : ScheduleUpdate s t := by
  obtain ⟨rest, -, rfl⟩ | ⟨-, rest, b, rfl⟩ | hout | ⟨c, p, r, -, -, -, rfl⟩ | ⟨r, v, rest, -, -, rfl⟩ |
    ⟨i, v, rest, -, -, -, hexec⟩ := step_cases h
  · exact (coreTurn_scheduleUpdate _).of_pending
  · exact .invalid rfl -- a reset
  · rw [hout]; exact .kept rfl rfl rfl rfl -- nothing in the core changes
  · exact .kept rfl rfl rfl rfl -- an error is raised
  · exact (writeReg_scheduleUpdate _ v r).of_pending
  · exact (exec_scheduleUpdate hexec).of_pending

/-- A valid schedule is the key's expansion, entry by entry (R38). -/
def State.ScheduleMatchesKey (s : State) : Prop :=
  s.schedValid = true → ∀ i : Fin 32, s.rk[i.val] = (expand s.k0 s.k1)[i.val]

theorem ScheduleUpdate.scheduleMatchesKey (h : ScheduleUpdate s t) (hs : s.ScheduleMatchesKey) :
    t.ScheduleMatchesKey := by
  intro ht i
  cases h with
  | kept hk0 hk1 hrk hvalid => simpa only [hk0, hk1, hrk] using hs (hvalid ▸ ht) i
  | invalid hvalid => simp [hvalid] at ht
  | expanded hrk => rw [hrk]

end Sys2Proof.Machine

section
open Sys2Proof.Machine

/-- Settles O55: reset leaves no valid schedule, and each of the three ways in which a transition updates the schedule
keeps a valid one equal to the key's expansion. -/
theorem validScheduleIsTheKeysExpansion : Obligations.ValidScheduleIsTheKeysExpansion :=
  ⟨fun hvalid => absurd hvalid (by decide), fun _ _ hs hstep => (step_scheduleUpdate hstep).scheduleMatchesKey hs⟩

end

namespace Sys2Proof.Machine

variable {s : State} {off : Offset} {w : Word} {c : List Byte} {j : Nat}

/-! O37, O38: the bytes of a word and of a block, in either byte order (20_memory.md R72, R73). -/

/-- With LE the first byte is the least significant. -/
theorem bytesOfWord_le_getElem? (hj : j < 8) : (bytesOfWord .le w)[j]? = some (w.extractLsb' (8 * j) 8) := by
  simp [bytesOfWord, leBytes, leByte, hj]

/-- With BE the first byte is the most significant. -/
theorem bytesOfWord_be_getElem? (hj : j < 8) : (bytesOfWord .be w)[j]? = some (w.extractLsb' (56 - 8 * j) 8) := by
  have hlen : j < (leBytes w).length := by rwa [leBytes_length]
  have hpos : 8 * (7 - j) = 56 - 8 * j := by omega
  have hbyte : (bytesOfWord .le w)[7 - j]? = some (w.extractLsb' (56 - 8 * j) 8) := by
    rw [bytesOfWord_le_getElem? (by omega), hpos]
  simpa only [bytesOfWord, List.getElem?_reverse hlen, leBytes_length] using hbyte

theorem bytesOfBlock_getElem?_y (bo : ByteOrder) (b : Block) (hj : j < 8) :
    (bytesOfBlock bo b)[j]? = (bytesOfWord bo b.y)[j]? :=
  List.getElem?_append_left (by rwa [bytesOfWord_length])

theorem bytesOfBlock_getElem?_x (bo : ByteOrder) (b : Block) (j : Nat) :
    (bytesOfBlock bo b)[8 + j]? = (bytesOfWord bo b.x)[j]? := by
  rw [bytesOfBlock, List.getElem?_append_right (by simp [bytesOfWord_length]), bytesOfWord_length,
    Nat.add_sub_cancel_left]

/-- The eight bytes of a word determine it: bit `i` is bit `i % 8` of byte `i / 8`. -/
theorem leBytes_injective : Function.Injective leBytes := by
  intro v w h
  have hbyte : ∀ k < 8, leByte v k = leByte w k := by simpa [leBytes] using h
  apply BitVec.eq_of_getLsbD_eq
  intro i hi
  have hbit := congrArg (·.getLsbD (i % 8)) (hbyte (i / 8) (by omega))
  simpa [leByte, Nat.mod_lt, Nat.div_add_mod] using hbit

theorem bytesOfWord_injective (bo : ByteOrder) : Function.Injective (bytesOfWord bo) := by
  cases bo with
  | le => exact leBytes_injective
  | be => exact List.reverse_injective.comp leBytes_injective

theorem bytesOfBlock_injective (bo : ByteOrder) : Function.Injective (bytesOfBlock bo) := by
  rintro ⟨x, y⟩ ⟨x', y'⟩ h
  obtain ⟨hy, hx⟩ := List.append_inj h (by simp only [bytesOfWord_length])
  exact congrArg₂ Block.mk (bytesOfWord_injective bo hx) (bytesOfWord_injective bo hy)

/-- Reading a block back from its bytes gives it: its bytes are 16, so they are the bytes of what is read back. -/
theorem blockOfChunk_bytesOfBlock (bo : ByteOrder) (b : Block) : blockOfChunk bo (bytesOfBlock bo b) = b :=
  bytesOfBlock_injective bo (bytesOfBlock_blockOfChunk bo _ (bytesOfBlock_length bo b))

/-! O43: accesses that raise BAD_ACCESS (20_memory.md R82). -/

/-- Error entry while ERR = 0 records the code (60_exceptions.md R263). -/
theorem raiseError_of_noErr (he : s.err = false) (code : ErrCode) :
    s.raiseError code = { s with err := true, errCode := code, busy := false, sPend := false } := by
  simp [State.raiseError, he]

theorem offset_rk_toNat (i : Fin 32) : (Reg.rk i).offset.toNat = 0x040 + 8 * i.val := by
  simp only [Reg.offset, BitVec.toNat_ofNat]
  omega

/-- No readable register stands at an offset that R82 names for reads (10_state.md R31). -/
theorem not_readable_of_bad_offset {r : Reg}
    (h : r.offset.toNat % 8 ≠ 0 ∨ r.offset = 0x000#12 ∨ r.offset = 0x038#12 ∨ 0x140 ≤ r.offset.toNat) :
    r.readable = false := by
  cases r with
  | cmd => rfl
  | status | key0 | key1 | x | y | rkin => exact absurd h (by decide)
  | rk i =>
    have hi := offset_rk_toNat i
    simp only [BitVec.toNat_eq, BitVec.toNat_ofNat] at h
    omega

/-- No writable register stands at an offset that R82 names for writes (R31). -/
theorem not_writable_of_bad_offset {r : Reg}
    (h : r.offset.toNat % 8 ≠ 0 ∨ r.offset = 0x008#12 ∨ r.offset = 0x038#12 ∨ 0x040 ≤ r.offset.toNat) :
    r.writable = false := by
  cases r with
  | status | rk i => rfl
  | cmd | key0 | key1 | x | y | rkin => exact absurd h (by decide)

/-- A read at an offset where no readable register stands is a bad read (R80). -/
theorem busRead_of_not_readable (hn : s.rstN = true) (hbad : ∀ r : Reg, off = r.offset → r.readable = false) :
    busRead off s = (0#64, s.badRead) := by
  unfold busRead
  cases hr : Reg.ofOffset off with
  | none => simp [hn]
  | some r => simp [hn, hbad r (Reg.offset_of_ofOffset hr)]

/-- A write at an offset where no writable register stands raises BAD_ACCESS, BUSY or not (R81, R266). -/
theorem busWrite_of_not_writable (hn : s.rstN = true) (he : s.err = false) (v : Word)
    (hbad : ∀ r : Reg, off = r.offset → r.writable = false) :
    busWrite off v s = .next (s.raiseError .badAccess) := by
  have hcmd : off ≠ Reg.cmd.offset := fun h => absurd (hbad .cmd h) (by decide)
  have hsrst : isSrst off v = false := isSrst_eq_false fun h => hcmd h.1
  unfold busWrite
  cases hr : Reg.ofOffset off with
  | none => simp [hn, he, hsrst]
  | some r => simp [hn, he, hsrst, hbad r (Reg.offset_of_ofOffset hr)]

end Sys2Proof.Machine

section
open Sys2Proof Sys2Proof.Machine

/-- Settles O37: each word's bytes stand in the given order, y' before x', and 16 bytes determine their block. -/
theorem blockBytesLayout : Obligations.BlockBytesLayout := by
  refine ⟨fun b j => ⟨?_, ?_, ?_, ?_⟩, fun bo b => ⟨bytesOfBlock_length bo b, blockOfChunk_bytesOfBlock bo b⟩⟩
  · rw [bytesOfBlock_getElem?_y _ _ j.isLt, bytesOfWord_le_getElem? j.isLt]
  · rw [bytesOfBlock_getElem?_x, bytesOfWord_le_getElem? j.isLt]
  · rw [bytesOfBlock_getElem?_y _ _ j.isLt, bytesOfWord_be_getElem? j.isLt]
  · rw [bytesOfBlock_getElem?_x, bytesOfWord_be_getElem? j.isLt]

/-- Settles O38: a 16-byte chunk is the byte layout of its block, so O37 gives each of its bytes. -/
theorem chunkWordsLayout : Obligations.ChunkWordsLayout := by
  intro c j hc
  obtain ⟨hley, hlex, -, -⟩ := blockBytesLayout.1 (blockOfChunk .le c) j
  obtain ⟨-, -, hbey, hbex⟩ := blockBytesLayout.1 (blockOfChunk .be c) j
  rw [bytesOfBlock_blockOfChunk _ c hc] at hley hlex hbey hbex
  refine ⟨?_, ?_, ?_, ?_⟩
  · simp [hley]
  · simp [hlex]
  · simp [hbey]
  · simp [hbex]

/-- Settles O43: no readable (writable) register stands at an offset that R82 names, so the access raises. -/
theorem badAccessIsRaised : Obligations.BadAccessIsRaised := by
  intro s off hn he
  rw [← raiseError_of_noErr he]
  constructor
  · intro hoff
    rw [busRead_of_not_readable hn fun _ h => not_readable_of_bad_offset (h ▸ hoff)]
    simp [State.badRead, he]
  · intro hoff v
    exact busWrite_of_not_writable hn he v fun _ h => not_writable_of_bad_offset (h ▸ hoff)

end

namespace Sys2Proof

/-! O2, O3: the fields of a command word (30_encoding.md R100, R103, R104). -/

@[simp] theorem KMode.toBit_ofBit (b : Bool) : (KMode.ofBit b).toBit = b := by
  cases b <;> rfl

@[simp] theorem Dir.toBit_ofBit (b : Bool) : (Dir.ofBit b).toBit = b := by
  cases b <;> rfl

/-- A single bit of a word is its field of width 1, as KMODE and DIR are. -/
theorem ofBool_getLsbD (v : Word) (n : Nat) : BitVec.ofBool (v.getLsbD n) = v.extractLsb' n 1 := by
  ext j hj
  obtain rfl : j = 0 := by omega
  simp

/-- The fields read off a word, put side by side again, are the word: in no format does R100 leave out a bit. -/
theorem CmdFields.toWord_ofWord (v : Word) : (CmdFields.ofWord v).toWord = v := by
  unfold CmdFields.ofWord
  dsimp only
  split_ifs
  · show v.extractLsb' 8 56 ++ v.extractLsb' 0 8 = v -- SYS
    rw [BitVec.extractLsb'_append_extractLsb'_eq_extractLsb' (by rfl)]
    exact BitVec.extractLsb'_eq_self
  · simp only [CmdFields.toWord, KMode.toBit_ofBit, Dir.toBit_ofBit, ofBool_getLsbD] -- MODE
    -- RES takes in CLASS, SUB, KMODE and DIR, one after the other.
    iterate 4 rw [BitVec.extractLsb'_append_extractLsb'_eq_extractLsb' (by rfl)]
    exact BitVec.extractLsb'_eq_self
  · rfl -- no format

open Laws.EncodeFields in
/-- The law of each command's fields, for any command. -/
theorem encodeFields (i : Instr) : Statement i := by
  cases i
  exacts [nop, rndF, rndI, ksExp, blkEncPre, blkDecPre, blkEncFus, blkDecFus, strEncPre, strDecPre, strEncFus,
    strDecFus, srst]

theorem CmdFields.ofWord_encode (i : Instr) : CmdFields.ofWord (encode i) = i.fields :=
  (encodeFields i).2.2

@[simp] theorem fields_decodeBlk (k : KMode) (d : Dir) : (decodeBlk k d).fields = .mode 0#56 0x1#4 0#2 k d := by
  cases k <;> cases d <;> rfl

@[simp] theorem fields_decodeStr (k : KMode) (d : Dir) : (decodeStr k d).fields = .mode 0#56 0x2#4 0#2 k d := by
  cases k <;> cases d <;> rfl

/-- The fields of a command name that command. -/
theorem CmdFields.instr_fields (i : Instr) : i.fields.instr = .ok i := by
  cases i <;> rfl

/-- A command of format SYS is named by its own opcode alone. -/
theorem fields_of_decodeSys {op : BitVec 8} {i : Instr} (h : decodeSys op = .ok i) : i.fields = .sys 0#56 op := by
  unfold decodeSys at h
  split_ifs at h with hop hop hop hop hop <;> cases h
  all_goals
    rw [hop]
    rfl

/-- No other fields name a command: RES and SUB must be 0 (R105), and OP, or CLASS, KMODE and DIR, tell the commands
apart. -/
theorem CmdFields.fields_of_instr {f : CmdFields} {i : Instr} (h : f.instr = .ok i) : i.fields = f := by
  cases f with
  | sys res op =>
    simp only [CmdFields.instr] at h
    split_ifs at h with hres
    rw [fields_of_decodeSys h, hres]
  | mode res cls sub k d =>
    simp only [CmdFields.instr] at h
    split_ifs at h with hres hsub hblk hstr
    · cases h
      rw [fields_decodeBlk, not_not.1 hres, not_not.1 hsub, hblk]
    · cases h
      rw [fields_decodeStr, not_not.1 hres, not_not.1 hsub, hstr]
  | noFormat v =>
    simp only [CmdFields.instr] at h
    split_ifs at h

/-- A word decodes to a command exactly when it is that command's word (R104). -/
theorem decode_eq_ok_iff {v : Word} {i : Instr} : decode v = .ok i ↔ v = encode i := by
  constructor
  · intro h
    calc v = (CmdFields.ofWord v).toWord := (CmdFields.toWord_ofWord v).symm
      _ = encode i := by rw [encode, CmdFields.fields_of_instr h]
  · rintro rfl
    calc decode (encode i) = i.fields.instr := by rw [decode, CmdFields.ofWord_encode]
      _ = .ok i := CmdFields.instr_fields i

@[simp] theorem decode_encode (i : Instr) : decode (encode i) = .ok i :=
  decode_eq_ok_iff.2 rfl

/-- With RES and SUB 0 a MODE word is `CLASS << 4 | KMODE << 1 | DIR`, whatever the class (R103). -/
theorem CmdFields.toWord_mode (cls : BitVec 4) (k : KMode) (d : Dir) :
    (CmdFields.mode 0#56 cls 0#2 k d).toWord =
      cls.setWidth 64 <<< 4 ||| Machine.zextBit k.toBit <<< 1 ||| Machine.zextBit d.toBit := by
  cases k <;> cases d <;> revert cls <;> decide

end Sys2Proof

namespace Sys2Proof.Machine

variable {s : State} {v : Word}

/-! O4: a host write to CMD (20_memory.md R81; 30_encoding.md R101, R105). -/

/-- To issue a word that is no command is error entry (R105). -/
theorem issue_of_not_encode (hv : ∀ i : Instr, v ≠ encode i) : issue v s = .next (s.raiseError .illegalCmd) := by
  unfold issue
  cases hd : decode v with
  | ok i => exact absurd (decode_eq_ok_iff.1 hd) (hv i)
  | error _ => rfl

/-- A free core issues every word written to CMD: the early check for the SRST word does what Issue does (R81, R266). -/
theorem busWrite_cmd_of_idle (h : s.idle) : busWrite 0x000#12 v s = issue v s := by
  obtain ⟨hn, hb, he⟩ := h
  by_cases hv : v = encode .srst
  · have hsrst : isSrst 0x000#12 (encode .srst) = true := by decide
    simp [hv, busWrite, issue, hn, hsrst]
  · have hsrst : isSrst 0x000#12 v = false := isSrst_eq_false fun h => hv h.2
    have hcmd : Reg.ofOffset 0x000#12 = some .cmd := Reg.ofOffset_offset .cmd
    simp [busWrite, hn, hb, he, hsrst, hcmd, Reg.writable]

/-- When a write to CMD comes next, a free core issues its word with the write taken off the host's program. -/
theorem step_cmd_of_idle {rest : List HostEvent} (h : s.idle) (hp : s.pending = .wr 0x000#12 v :: rest) :
    step s = issue v { s with pending := rest } :=
  (step_cons hp).trans (busWrite_cmd_of_idle h)

/-- Error entry on a free core: BUSY is 0 as it stands (60_exceptions.md R263). -/
theorem raiseError_of_idle (h : s.idle) (code : ErrCode) :
    s.raiseError code = { s with err := true, errCode := code, sPend := false } := by
  obtain ⟨-, hb, he⟩ := h
  rw [raiseError_of_noErr he, hb]

end Sys2Proof.Machine

section
open Sys2Proof Sys2Proof.Machine

/-- Settles O2: a word is what its fields put together, and only a command's own fields name it; the 13 values are
evaluated. -/
theorem decodeSelectsByFullWord : Obligations.DecodeSelectsByFullWord :=
  ⟨fun _ _ => decode_eq_ok_iff, by decide⟩

/-- Settles O4: the step issues the word, which decodes to no command, so all it does is error entry. -/
theorem illegalWordRaisesOnlyIllegalCmd : Obligations.IllegalWordRaisesOnlyIllegalCmd := by
  intro s v rest hidle hp hv
  have hrest : ({ s with pending := rest } : State).idle := hidle
  calc step s = issue v { s with pending := rest } := step_cmd_of_idle hidle hp
    _ = .next (({ s with pending := rest } : State).raiseError .illegalCmd) := issue_of_not_encode hv
    _ = .next { s with pending := rest, err := true, errCode := .illegalCmd, sPend := false } :=
      congrArg _ (raiseError_of_idle hrest _)

/-- Settles O3: the commands of a class have its MODE fields with (KMODE, DIR), whose word has the layout. -/
theorem modeOpcodeLayout : Obligations.ModeOpcodeLayout := by
  refine ⟨fun k d => ⟨?_, ?_⟩, by decide⟩
  · rw [encode, fields_decodeBlk]
    exact CmdFields.toWord_mode 0x1#4 k d
  · rw [encode, fields_decodeStr]
    exact CmdFields.toWord_mode 0x2#4 k d

end

namespace Sys2Proof.Machine

variable {v : Word} {n : Nat}

/-! O6, O7: the round function and its inverse (40_round_function.md R131 to R133). -/

/-- Bit `i` of the word goes to the right by `n`, around the end when `i < n`, and the rotation to the left brings it
back. -/
theorem rotl64_rotr64 (hn : n < 64) : rotl64 (rotr64 v n) n = v := by
  rw [rotr64_eq v n hn, rotl64_eq _ n hn]
  apply BitVec.eq_of_getElem_eq
  intro i hi
  by_cases hwrap : i < n
  · have hback : 64 - n + i - (64 - n) = i := by omega
    simp [BitVec.getElem_rotateLeft, BitVec.getElem_rotateRight, Nat.mod_eq_of_lt hn, hwrap, hback]
  · have hlow : i - n < 64 - n := by omega
    have hback : n + (i - n) = i := by omega
    simp [BitVec.getElem_rotateLeft, BitVec.getElem_rotateRight, Nat.mod_eq_of_lt hn, hwrap, hlow, hback]

/-- A rotation to the left is the rotation to the right by the rest of the word. -/
theorem rotl64_eq_rotr64_sub (v : Word) (hn : n < 64) : rotl64 v n = rotr64 v (64 - n) := by
  have hrest : 64 - (64 - n) = n := by omega
  rw [rotl64, rotr64, hrest, BitVec.or_comm]

/-- By the mirror image of `rotl64_rotr64`, at the amount `64 - n`. -/
theorem rotr64_rotl64 (hpos : 0 < n) (hn : n < 64) : rotr64 (rotl64 v n) n = v := by
  have hrest : 64 - (64 - n) = n := by omega
  calc rotr64 (rotl64 v n) n = rotl64 (rotl64 v n) (64 - n) := by
        rw [rotl64_eq_rotr64_sub _ (by omega : 64 - n < 64), hrest]
    _ = rotl64 (rotr64 v (64 - n)) (64 - n) := by rw [rotl64_eq_rotr64_sub v hn]
    _ = v := rotl64_rotr64 (by omega)

theorem roundF_x (b : Block) (k : Word) : (roundF b k).x = (rotr64 b.x 8 + b.y) ^^^ k := rfl

theorem roundF_y (b : Block) (k : Word) : (roundF b k).y = rotl64 b.y 3 ^^^ (roundF b k).x := rfl

theorem roundI_y (b : Block) (k : Word) : (roundI b k).y = rotr64 (b.y ^^^ b.x) 3 := rfl

theorem roundI_x (b : Block) (k : Word) : (roundI b k).x = rotl64 ((b.x ^^^ k) - (roundI b k).y) 8 := rfl

/-- An xor with the same word twice cancels. -/
theorem xor_xor_self_right (v w : Word) : v ^^^ w ^^^ w = v := by
  rw [BitVec.xor_assoc, BitVec.xor_self, BitVec.xor_zero]

/-- `RoundI` finds y first, from the new y and x alone, and with it x (R133). -/
@[simp] theorem roundI_roundF (b : Block) (k : Word) : roundI (roundF b k) k = b := by
  have hy : (roundI (roundF b k) k).y = b.y := by
    rw [roundI_y, roundF_y, xor_xor_self_right, rotr64_rotl64 (by decide) (by decide)]
  have hx : (roundI (roundF b k) k).x = b.x := by
    rw [roundI_x, hy, roundF_x, xor_xor_self_right, BitVec.add_sub_cancel, rotl64_rotr64 (by decide)]
  exact congr (congrArg Block.mk hx) hy

/-- `RoundF` finds x first, from the sum that `RoundI` took apart, and with it y (R133). -/
@[simp] theorem roundF_roundI (b : Block) (k : Word) : roundF (roundI b k) k = b := by
  have hx : (roundF (roundI b k) k).x = b.x := by
    rw [roundF_x, roundI_x, rotr64_rotl64 (by decide) (by decide), BitVec.sub_add_cancel, xor_xor_self_right]
  have hy : (roundF (roundI b k) k).y = b.y := by
    rw [roundF_y, hx, roundI_y, rotl64_rotr64 (by decide), xor_xor_self_right]
  exact congr (congrArg Block.mk hx) hy

end Sys2Proof.Machine

section
open Sys2Proof Sys2Proof.Machine

/-- Settles O7: each round's rotations, sum and xors are undone by the other's, in the opposite order. -/
theorem roundsInvertEachOther : Obligations.RoundsInvertEachOther :=
  fun b k => ⟨roundI_roundF b k, roundF_roundI b k⟩

/-- Settles O6: the closed forms with the model's rotations, which are the library's. -/
theorem roundFunctionClosedForm : Obligations.RoundFunctionClosedForm := by
  intro b k
  refine ⟨?_, ?_, ?_, ?_⟩
  · rw [roundF_x, rotr64_eq _ 8 (by decide)]
  · rw [roundF_y, rotl64_eq _ 3 (by decide)]
  · rw [roundI_y, rotr64_eq _ 3 (by decide)]
  · rw [roundI_x, rotl64_eq _ 8 (by decide)]

end

namespace Sys2Proof.Machine

/-- The running pair (a, b) before round index `i`, started at `p` (R151). -/
def runningPair (p : KeyPair) : (i : Nat) → KeyPair
  | 0 => p
  | i + 1 => genStep (runningPair p i) i

@[simp] theorem runningPair_zero (p : KeyPair) : runningPair p 0 = p := rfl

theorem runningPair_succ (p : KeyPair) (i : Nat) : runningPair p (i + 1) = genStep (runningPair p i) i := rfl

theorem genStep_b (p : KeyPair) (i : Nat) :
    (genStep p i).b = (p.b.rotateRight 8 + p.a) ^^^ BitVec.ofNat 64 i := by
  rw [← rotr64_eq _ 8 (by decide)]
  exact roundF_x ⟨p.b, p.a⟩ _

theorem genStep_a (p : KeyPair) (i : Nat) : (genStep p i).a = p.a.rotateLeft 3 ^^^ (genStep p i).b := by
  rw [← rotl64_eq _ 3 (by decide)]
  exact roundF_y ⟨p.b, p.a⟩ _

/-- Stated from any round index `j` on, because `keysFrom` recurses with the index advanced by one. -/
theorem keysFrom_getElem (p : KeyPair) {n j i : Nat} (hi : i < (keysFrom n j (runningPair p j)).length) :
    (keysFrom n j (runningPair p j))[i] = (runningPair p (j + i)).a := by
  induction n generalizing i j with
  | zero => exact absurd hi (Nat.not_lt_zero i)
  | succ n ih =>
    cases i with
    | zero => rfl
    | succ i =>
      have htail : i < (keysFrom n (j + 1) (runningPair p (j + 1))).length := Nat.lt_of_succ_lt_succ hi
      calc (keysFrom (n + 1) j (runningPair p j))[i + 1]
          = (keysFrom n (j + 1) (runningPair p (j + 1)))[i] := rfl
        _ = (runningPair p (j + 1 + i)).a := ih htail
        _ = (runningPair p (j + (i + 1))).a := by rw [Nat.add_right_comm, Nat.add_assoc]

/-- Round key `i` is the `a` of the running pair before round index `i`. -/
theorem expand_getElem (k0 k1 : Word) (i : Fin 32) :
    (expand k0 k1)[i.val] = (runningPair ⟨k0, k1⟩ i.val).a := by
  have hi : i.val < (keysFrom 32 0 (runningPair ⟨k0, k1⟩ 0)).length := by simp [keysFrom_length]
  calc (expand k0 k1)[i.val] = (keysFrom 32 0 (runningPair ⟨k0, k1⟩ 0))[i.val] := rfl
    _ = (runningPair ⟨k0, k1⟩ (0 + i.val)).a := keysFrom_getElem _ hi
    _ = (runningPair ⟨k0, k1⟩ i.val).a := by rw [Nat.zero_add]

end Sys2Proof.Machine

section
open Sys2Proof Sys2Proof.Machine

/-- Settles O11: the sequence is the running pair that `expand` itself carries along. -/
theorem expandRecordsThenAdvances : Obligations.ExpandRecordsThenAdvances := by
  intro k0 k1
  refine ⟨runningPair ⟨k0, k1⟩, runningPair_zero _, fun i => ⟨expand_getElem k0 k1 i, ?_, ?_⟩⟩
  · rw [runningPair_succ, genStep_b]
  · rw [runningPair_succ, genStep_a]

end

namespace Sys2Proof.Machine

section
variable (rk : Vector Word 32) (b : Block)

/-- The block after the first `n` forward rounds, those with rk[0] to rk[n-1] (R171). -/
def encRounds (n : Nat) : Block := (rk.toList.take n).foldl roundF b

/-- The block after the inverse rounds with rk[31] down to rk[i] (R173). -/
def decRounds (i : Nat) : Block := (rk.toList.drop i).reverse.foldl roundI b

@[simp] theorem encRounds_zero : encRounds rk b 0 = b := rfl

@[simp] theorem decRounds_last : decRounds rk b 32 = b := by
  rw [decRounds, List.drop_of_length_le rk.length_toList.le]
  rfl

theorem encRounds_succ {i : Nat} (hi : i < 32) :
    encRounds rk b (i + 1) = roundF (encRounds rk b i) rk[i] := by
  have htake : rk.toList.take (i + 1) = rk.toList.take i ++ [rk[i]] := by simp [List.take_add_one, hi]
  rw [encRounds, htake, List.foldl_append]
  rfl

theorem decRounds_of_succ {i : Nat} (hi : i < 32) :
    decRounds rk b i = roundI (decRounds rk b (i + 1)) rk[i] := by
  have hdrop : rk.toList.drop i = rk[i] :: rk.toList.drop (i + 1) := by
    rw [List.drop_eq_getElem_cons (by simpa using hi), Vector.getElem_toList]
  rw [decRounds, hdrop, List.reverse_cons, List.foldl_append]
  rfl

theorem enc_eq_encRounds : enc rk b = encRounds rk b 32 := by
  rw [enc, encRounds, List.take_of_length_le rk.length_toList.le]

theorem dec_eq_decRounds : dec rk b = decRounds rk b 0 := rfl

end

end Sys2Proof.Machine

section
open Sys2Proof Sys2Proof.Machine

/-- Settles O13: the chains are the partial transforms over the first `i` keys and over the keys from `i` on. -/
theorem blockTransformsRunRoundsInOrder : Obligations.BlockTransformsRunRoundsInOrder := by
  intro rk b
  constructor
  · exact ⟨encRounds rk b, encRounds_zero rk b, fun i => encRounds_succ rk b i.isLt, enc_eq_encRounds rk b⟩
  · exact ⟨decRounds rk b, decRounds_last rk b, fun i => decRounds_of_succ rk b i.isLt, dec_eq_decRounds rk b⟩

end

namespace Sys2Proof.Machine

variable {s : State}

/-! O29: the read phase of an input that is used up (43_stream_driver.md R205). -/

/-- The end mark answers the read though nothing is unread, and of the three ends of a read phase only the one of zero
bytes fits (R203, R205). -/
theorem State.streamStep_of_endOfInput (hbusy : s.busy = true) (herr : s.err = false) (hpend : s.sPend = false)
    (hfail : s.inFail = false) (hend : s.inEnd = true) (hunread : s.unread = []) :
    s.streamStep = some { s with busy := false } := by
  have henabled : s.streamStep.isSome = true :=
    streamStep_isSome.2 ⟨hbusy, herr, .inr ⟨hpend, .inr (.inr hend)⟩⟩
  obtain ⟨t, ht⟩ := Option.isSome_iff_exists.1 henabled
  obtain ⟨-, -, ⟨hwrite, -⟩ | ⟨-, hread⟩⟩ := streamStep_cases ht
  · simp [hpend] at hwrite
  · obtain ⟨hfailed, -⟩ | ⟨-, -, -, hzero⟩ | ⟨-, -, hbytes, -⟩ := readPhase_cases hread
    · simp [hfail] at hfailed
    · rw [ht, hzero]
    · exact absurd hunread hbytes

end Sys2Proof.Machine

section
open Sys2Proof Sys2Proof.Machine

/-- Settles O29: the step is the core's turn, and the turn is the read phase that gets zero bytes. -/
theorem emptyReadEndsStream : Obligations.EmptyReadEndsStream := by
  intro s rest hturn hbusy herr hpend hfail hend hunread
  have hphase : ({ s with pending := rest } : State).streamStep = some { s with pending := rest, busy := false } :=
    State.streamStep_of_endOfInput hbusy herr hpend hfail hend hunread
  calc step s = .next ({ s with pending := rest } : State).coreTurn := step_coreNext hturn
    _ = .next { s with busy := false, pending := rest } := congrArg _ (State.coreTurn_of_some hphase)

end

namespace Sys2Proof.Machine

variable {s t : State}

/-! What the transitions do to the host's side: the pin and the stream ports (20_memory.md R84 to R86). -/

/-- The part of the state outside the core that the ports and the pin depend on. -/
def State.ports (s : State) : Bool × List Byte × Nat × Bool × Bool × List Byte × Bool × Option (Fin 17) :=
  (s.rstN, s.input, s.inPtr, s.inEnd, s.inFail, s.output, s.outReady, s.outFail)

/-- From `s` to `t` the pin is not driven low, the host only adds to what it supplies and reports, it does not take back
the acceptance of a write request that stands, and no stream byte moves. -/
structure State.PortsKept (s t : State) : Prop where
  pin : s.rstN = true → t.rstN = true
  input : ∃ bs, t.input = s.input ++ bs
  inPtr : t.inPtr = s.inPtr
  inEnd : s.inEnd = true → t.inEnd = true
  inFail : s.inFail = true → t.inFail = true
  output : t.output = s.output
  outFail : s.outFail ≠ none → t.outFail ≠ none
  accepted : s.busy = true → s.sPend = true → s.outReady = true → t.outReady = true

theorem State.PortsKept.of_ports_eq (h : t.ports = s.ports) : s.PortsKept t := by
  simp only [State.ports, Prod.mk.injEq] at h
  obtain ⟨hn, hi, hp, he, hf, ho, hr, hw⟩ := h
  exact ⟨by simp [hn], ⟨[], by simp [hi]⟩, hp, by simp [he], by simp [hf], ho, by simp [hw], by simp [hr]⟩

/-- What the host has supplied but the core has not read only grows. -/
theorem State.PortsKept.unread_length_le (h : s.PortsKept t) : s.unread.length ≤ t.unread.length := by
  obtain ⟨bs, hbs⟩ := h.input
  simp only [State.unread, List.length_drop, h.inPtr, hbs, List.length_append]
  omega

theorem exec_ports {i : Instr} (h : exec i s = .next t) : t.ports = s.ports := by
  obtain ⟨-, rfl⟩ | ⟨_, -, rfl⟩ | ⟨-, -, rfl⟩ | ⟨_, -, -, rfl⟩ | ⟨_, -, -, rfl⟩ | ⟨_, -, -, rfl⟩ |
    ⟨d, k, -, -, rfl⟩ | ⟨-, rfl⟩ | ⟨-, rfl⟩ | ⟨-, rfl⟩ := exec_cases h
  · rfl -- NOP
  · rfl -- RND_F, RND_I
  · rfl -- KS_EXP
  · rfl -- BLK_ENC_PRE, BLK_DEC_PRE
  · rfl -- BLK_ENC_FUS
  · rfl -- BLK_DEC_FUS
  · cases k <;> rfl -- the start of a stream, in either key mode
  · rfl -- NO_KEY
  · rfl -- NO_SCHED
  · rfl -- SRST

theorem busRead_ports (off : Offset) (s : State) : (busRead off s).2.ports = s.ports := by
  obtain h | ⟨-, -, h⟩ | h := busRead_cases off s <;> rw [h] <;> rfl

theorem busWrite_ports {off : Offset} {v : Word} (h : busWrite off v s = .next t) : t.ports = s.ports := by
  obtain ⟨-, rfl⟩ | ⟨-, -, rfl⟩ | ⟨-, -, -, rfl⟩ |
    ⟨-, -, -, rfl | ⟨-, rfl⟩ | ⟨-, -, hi⟩ | ⟨r, -, -, -, -, rfl⟩⟩ := busWrite_cases h
  · rfl -- RST_N is low
  · rfl -- SRST
  · rfl -- ERR = 1
  · rfl -- BAD_ACCESS
  · rfl -- BUSY_WRITE
  · obtain ⟨i, -, hexec⟩ | rfl := issue_cases hi
    · exact exec_ports hexec
    · rfl -- ILLEGAL_CMD
  · cases r <;> rfl -- a register is written

theorem hostRead_ports (off : Offset) (s : State) : (hostRead off s).ports = s.ports :=
  busRead_ports off s

theorem hostWait_ports (s : State) : (hostWait s).ports = s.ports := by
  unfold hostWait
  dsimp only
  split <;> exact hostRead_ports Reg.status.offset s

/-- The host's events keep the ports, but for the core's turn, the attachment of new streams and the pin driven low. -/
theorem hostEvent_portsKept {e : HostEvent} (h : hostEvent e s = .next t) (hcore : e ≠ .core) (hattach : e ≠ .attach)
    (hlow : e ≠ .rstN false) : s.PortsKept t := by
  cases e with
  | core => exact absurd rfl hcore
  | attach => exact absurd rfl hattach
  | rd off => cases h; exact .of_ports_eq (hostRead_ports off s)
  | wr off v => exact .of_ports_eq (busWrite_ports h)
  | wait => cases h; exact .of_ports_eq (hostWait_ports s)
  | inBytes bs =>
    simp only [hostEvent, hostInput] at h
    split at h <;> cases h
    exact ⟨id, ⟨bs, rfl⟩, rfl, id, id, rfl, id, fun _ _ => id⟩
  | eos => cases h; exact ⟨id, ⟨[], by simp⟩, rfl, fun _ => rfl, id, rfl, id, fun _ _ => id⟩
  | outReady b =>
    cases h
    exact ⟨id, ⟨[], by simp [hostReady]⟩, rfl, id, id, rfl, id, fun hb hp hr => by simp [hostReady, hb, hp, hr]⟩
  | failIn => cases h; exact ⟨id, ⟨[], by simp⟩, rfl, id, fun _ => rfl, rfl, id, fun _ _ => id⟩
  | failOut m =>
    cases h
    exact ⟨id, ⟨[], by simp⟩, rfl, id, id, rfl, fun _ => Option.some_ne_none m, fun _ _ => id⟩
  | rstN b =>
    cases b with
    | false => exact absurd rfl hlow
    | true => cases h; exact ⟨fun _ => rfl, ⟨[], by simp [driveRstN]⟩, rfl, id, id, rfl, id, fun _ _ => id⟩

/-- New streams are attached only while no stream command runs, and are empty (R93). -/
theorem hostAttach_eq_next (h : hostAttach s = .next t) : s.busy = false ∧
    t = { s with input := [], inPtr := 0, inEnd := false, inFail := false, output := [], outFail := none } := by
  unfold hostAttach at h
  split at h <;> cases h
  rename_i hb
  exact ⟨by simpa using hb, rfl⟩

/-- What a transition does at the ports and to the pin: a turn of the core may move stream bytes, the host may attach new
streams or drive the pin low, and every other transition keeps them. -/
theorem step_ports (h : step s = .next t) :
    (∃ rest, (s.pending = [] ∨ s.pending = .core :: rest) ∧ t = ({ s with pending := rest } : State).coreTurn) ∨
    (∃ rest, s.pending = .attach :: rest ∧ hostAttach { s with pending := rest } = .next t) ∨
    (∃ rest, s.pending = .rstN false :: rest ∧
      t = { ({ s with pending := rest } : State).resetCore with rstN := false }) ∨
    s.PortsKept t := by
  cases hp : s.pending with
  | nil =>
    rw [step_nil hp] at h; cases h
    exact .inl ⟨[], .inl rfl, by rw [← hp]⟩
  | cons e rest =>
    rw [step_cons hp] at h
    by_cases hcore : e = .core
    · subst hcore; cases h; exact .inl ⟨rest, .inr rfl, rfl⟩
    · by_cases hattach : e = .attach
      · subst hattach; exact .inr (.inl ⟨rest, rfl, h⟩)
      · by_cases hlow : e = .rstN false
        · subst hlow; cases h; exact .inr (.inr (.inl ⟨rest, rfl, rfl⟩))
        · exact .inr (.inr (.inr { hostEvent_portsKept h hcore hattach hlow with }))

/-! O48: the error state (60_exceptions.md R264, R265). -/

/-- In the error state no stream step is enabled. -/
theorem coreTurn_of_err (he : s.err = true) : s.coreTurn = s :=
  State.coreTurn_of_none (by simp [State.streamStep, he])

end Sys2Proof.Machine

section
open Sys2Proof Sys2Proof.Machine

/-- Settles O48: of the kinds of transition, error entry by a host access, register writes and commands need ERR = 0,
and the core has no turn; a reset, or a change outside the core, is left. -/
theorem onlyResetLeavesErrorState : Obligations.OnlyResetLeavesErrorState := by
  intro s t herr hstep
  obtain ⟨rest, -, rfl⟩ | ⟨hreset, rest, b, rfl⟩ | hout | ⟨c, p, r, hno, -⟩ | ⟨r, v, rest, ⟨-, -, hno⟩, -⟩ |
    ⟨i, v, rest, ⟨-, -, hno⟩, -⟩ := step_cases hstep
  · rw [coreTurn_of_err (s := { s with pending := rest }) herr]
    exact .inr rfl
  · exact .inl ⟨hreset, rfl, rfl⟩
  · exact .inr hout
  · simp [herr] at hno
  · simp [herr] at hno
  · simp [herr] at hno

end

namespace Sys2Proof.Machine

variable {s t : State}

/-! O53, O54: the machine's invariant. One lemma per operation. -/

namespace State.Inv

/-- The invariant does not read the host's program, its reads or the draw counter, and what the host adds at the ports
keeps it. -/
theorem of_outside (h : s.Inv) (hout : t = s.withOutsideOf t) (hports : s.PortsKept t) : t.Inv := by
  obtain ⟨bs, hinput⟩ := hports.input
  rw [hout]
  exact { h with
    readPosition := by
      have hpos := h.readPosition
      simp only [withOutsideOf_inPtr, withOutsideOf_input, hports.inPtr, hinput, List.length_append]
      omega
    running := fun hb =>
      have ⟨hkv0, hkv1, he, hn⟩ := h.running hb
      ⟨hkv0, hkv1, he, hports.pin hn⟩
    consumed := fun hb => hports.inPtr.symm ▸ h.consumed hb
    heldInReset := fun hlow => h.heldInReset (by
      cases hn : s.rstN with
      | false => rfl
      | true => exact absurd (hports.pin hn) (by simpa using hlow)) }

theorem setPending (h : s.Inv) (es : List HostEvent) : ({ s with pending := es } : State).Inv := { h with }

theorem writeBlock (h : s.Inv) (b : Block) : (s.writeBlock b).Inv := { h with }

theorem nextDraw (h : s.Inv) : s.nextDraw.Inv := { h with }

theorem useKeyPair (h : s.Inv) : s.useKeyPair.Inv := { h with }

theorem rebuildScratch (h : s.Inv) : s.rebuildScratch.Inv := { h with }

/-- Error entry ends a stream and records a code that is not 0 (60_exceptions.md R263). -/
theorem raiseError (h : s.Inv) {code : ErrCode} (hcode : code ≠ .noError) (hn : s.rstN = true) :
    (s.raiseError code).Inv where
  readPosition := h.readPosition
  errorCode := by
    cases he : s.err with
    | false => simp [he, hcode]
    | true => simpa [he] using h.errorCode.1 he
  schedule := h.schedule
  running hb := nomatch hb
  runningPre hb := nomatch hb
  pendingBlock hp := nomatch hp
  noReadAfterShort hb := nomatch hb
  chunkAligned hb := nomatch hb
  consumed hb := nomatch hb
  heldInReset hlow := by simp [hn] at hlow

/-- After a reset all control bits are 0, whatever the pin is driven to (70_reset_and_hazards.md R300). -/
theorem resetCore (h : s.Inv) (b : Bool) : ({ s.resetCore with rstN := b } : State).Inv where
  readPosition := h.readPosition
  errorCode := by simp
  schedule hv := nomatch hv
  running hb := nomatch hb
  runningPre hb := nomatch hb
  pendingBlock hp := nomatch hp
  noReadAfterShort hb := nomatch hb
  chunkAligned hb := nomatch hb
  consumed hb := nomatch hb
  heldInReset _ := ⟨rfl, rfl, rfl, rfl, rfl⟩

/-- New streams are attached to a core that is not busy. -/
theorem attach (h : s.Inv) (ht : hostAttach s = .next t) : t.Inv := by
  obtain ⟨hb, rfl⟩ := hostAttach_eq_next ht
  exact { h with
    readPosition := Nat.le_refl 0
    consumed := fun hbusy => by simp [hb] at hbusy }

/-- A free core is out of reset and runs no stream, so of a register write only the schedule clause is in question: a key
write clears SCHED_VALID (10_state.md R33). -/
theorem writeReg (h : s.Inv) (hidle : s.idle) (v : Word) (r : Reg) : (s.writeReg v r).Inv := by
  obtain ⟨hn, hb, -⟩ := hidle
  cases r with
  | key0 | key1 =>
    exact { h with
      schedule := fun hv => nomatch hv
      running := fun hbusy => by simp [hb] at hbusy
      runningPre := fun hbusy => by simp [hb] at hbusy
      heldInReset := fun hlow => by simp [hn] at hlow }
  | cmd | status | x | y | rkin | rk _ => exact { h with }

/-- An expansion makes the schedule valid (R38, R152). -/
theorem loadSchedule (h : s.Inv) (hn : s.rstN = true) (hkey : s.keyValid = true) : s.loadSchedule.Inv := by
  obtain ⟨hkv0, hkv1⟩ : s.kv0 = true ∧ s.kv1 = true := by simpa [keyValid] using hkey
  exact { h with
    schedule := fun _ => ⟨hkv0, hkv1, rfl, rfl⟩
    runningPre := fun _ _ => rfl
    heldInReset := fun hlow => by simp [hn] at hlow }

/-- A stream starts with the key, its schedule if it is precomputed, no block pending and nothing consumed
(43_stream_driver.md R201, R202). -/
theorem startStream (h : s.Inv) (hidle : s.idle) (hkey : s.keyValid = true) (d : Dir) (k : KMode) :
    (s.startStream d k).Inv := by
  obtain ⟨hn, hb, he⟩ := hidle
  obtain ⟨hkv0, hkv1⟩ : s.kv0 = true ∧ s.kv1 = true := by simpa [keyValid] using hkey
  exact
    { readPosition := by simpa using h.readPosition
      errorCode := by simpa using h.errorCode
      schedule := by
        cases k with
        | pre => exact fun _ => ⟨hkv0, hkv1, rfl, rfl⟩
        | fus => exact h.schedule
      running := by simp [hkv0, hkv1, he, hn]
      runningPre := by
        cases k with
        | pre => exact fun _ _ => rfl
        | fus => exact fun _ hpre => nomatch hpre
      pendingBlock := by simp
      noReadAfterShort := by simp
      chunkAligned := by simp
      consumed := by simp
      heldInReset := by simp [hn] }

/-- A command issued to a free core. -/
theorem exec (h : s.Inv) (hidle : s.idle) {i : Instr} (hexec : exec i s = .next t) : t.Inv := by
  have hn := hidle.1
  obtain ⟨-, rfl⟩ | ⟨b, -, rfl⟩ | ⟨-, hkey, rfl⟩ | ⟨b, -, -, rfl⟩ | ⟨b, -, -, rfl⟩ | ⟨b, -, -, rfl⟩ |
    ⟨d, k, -, hkey, rfl⟩ | ⟨-, rfl⟩ | ⟨-, rfl⟩ | ⟨-, rfl⟩ := exec_cases hexec
  · exact h -- NOP
  · exact (h.writeBlock b).nextDraw -- RND_F, RND_I
  · exact h.loadSchedule hn hkey -- KS_EXP
  · exact (h.writeBlock b).nextDraw -- BLK_ENC_PRE, BLK_DEC_PRE
  · exact (h.writeBlock b).useKeyPair -- BLK_ENC_FUS
  · exact (h.writeBlock b).rebuildScratch.useKeyPair -- BLK_DEC_FUS
  · exact h.startStream hidle hkey d k
  · exact h.raiseError (by decide) hn -- NO_KEY
  · exact h.raiseError (by decide) hn -- NO_SCHED
  · exact h.resetCore s.rstN -- SRST

/-- A chunk moves the read position and the count of consumed bytes on together, within the input; only a short one
leaves the alignment, and is the last (20_memory.md R76; 43_stream_driver.md R206). -/
theorem takeChunk (h : s.Inv) (hbusy : s.busy = true) (hpend : s.sPend = false) :
    (({ s with
      inPtr := s.inPtr + (s.unread.take 16).length
      inPos := s.inPos + (s.unread.take 16).length } : State).takeChunk (s.unread.take 16)).Inv where
  readPosition := by
    have hpos := h.readPosition
    simp only [takeChunk_inPtr, takeChunk_input, State.unread, List.length_take, List.length_drop]
    omega
  errorCode := by simpa using h.errorCode
  schedule := by simpa using h.schedule
  running := by simpa using h.running
  runningPre := by simpa using h.runningPre
  pendingBlock := by simp [hbusy]
  noReadAfterShort := by simp
  chunkAligned := by
    have hfinal : s.sFinal = false := by
      cases hf : s.sFinal with
      | false => rfl
      | true => exact absurd (h.noReadAfterShort hbusy hf) (by simp [hpend])
    have haligned := h.chunkAligned hbusy hfinal
    simp only [takeChunk_busy, takeChunk_sFinal, takeChunk_inPos, hfinal, Bool.false_or, decide_eq_false_iff_not,
      List.length_take]
    omega
  consumed := by simpa using h.consumed
  heldInReset := by simpa using h.heldInReset

/-- Each end of a phase of a running stream (R203). -/
theorem streamStep (h : s.Inv) (hstep : s.streamStep = some t) : t.Inv := by
  obtain ⟨hbusy, -, hphase⟩ := streamStep_cases hstep
  obtain ⟨-, -, -, hn⟩ := h.running hbusy
  obtain ⟨-, hphase⟩ | ⟨hpend, hphase⟩ := hphase
  · obtain ⟨m, -, rfl⟩ | ⟨-, -, rfl⟩ := writePhase_cases hphase
    · -- the write failed; error entry clears S_PEND as well
      have hwritten : (({ s with
          output := s.output ++ (bytesOfBlock s.cfg.byteOrder s.ob).take m.val
          outFail := none } : State).writeBlock s.ob).Inv := { h with }
      exact hwritten.raiseError (code := .outErr) (by decide) hn
    · -- the block is written; BUSY stays only when no short chunk was read
      exact { h with
        running := fun _ => h.running hbusy
        runningPre := fun _ => h.runningPre hbusy
        pendingBlock := fun hp => nomatch hp
        noReadAfterShort := fun hb hfinal => by simp_all
        chunkAligned := fun _ => h.chunkAligned hbusy
        consumed := fun _ => h.consumed hbusy
        heldInReset := fun hlow => by simp [hn] at hlow }
  · obtain ⟨-, rfl⟩ | ⟨-, -, -, rfl⟩ | ⟨-, -, -, rfl⟩ := readPhase_cases hphase
    · -- the read failed
      have hdelivered : ({ s with inFail := false } : State).Inv := { h with }
      exact hdelivered.raiseError (by decide) hn
    · -- nothing is left to read
      exact { h with
        running := fun hb => nomatch hb
        runningPre := fun hb => nomatch hb
        pendingBlock := fun hp => by simp [hpend] at hp
        noReadAfterShort := fun hb => nomatch hb
        chunkAligned := fun hb => nomatch hb
        consumed := fun hb => nomatch hb
        heldInReset := fun hlow => by simp [hn] at hlow }
    · exact h.takeChunk hbusy hpend

theorem coreTurn (h : s.Inv) : s.coreTurn.Inv := by
  obtain hstep | ⟨-, hstays⟩ := coreTurn_cases s
  · exact h.streamStep hstep
  · exact hstays.symm ▸ h

/-- Every transition keeps the invariant. A change outside the core is made by a host event. -/
theorem step (h : s.Inv) (hstep : step s = .next t) : t.Inv := by
  obtain ⟨rest, -, rfl⟩ | ⟨-, rest, b, rfl⟩ | hout | ⟨c, p, r, -, hn, hc, rfl⟩ | ⟨r, v, rest, hidle, -, rfl⟩ |
    ⟨i, v, rest, hidle, -, -, hexec⟩ := step_cases hstep
  · exact (h.setPending rest).coreTurn
  · exact (h.setPending rest).resetCore b
  · obtain ⟨rest, -, rfl⟩ | ⟨rest, -, hattach⟩ | ⟨rest, -, rfl⟩ | hkept := step_ports hstep
    · exact (h.setPending rest).coreTurn
    · exact (h.setPending rest).attach hattach
    · exact (h.setPending rest).resetCore false
    · exact h.of_outside hout hkept
  · exact { (h.setPending p).raiseError hc hn with }
  · exact (h.setPending rest).writeReg hidle v r
  · exact (h.setPending rest).exec hidle hexec

end State.Inv

end Sys2Proof.Machine

section
open Sys2Proof Sys2Proof.Machine

/-- Settles O53: at reset the control bits, the read position and the error code are 0. -/
theorem invariantHoldsAtReset : Obligations.InvariantHoldsAtReset where
  readPosition := Nat.le_refl 0
  errorCode := by decide
  schedule hv := nomatch hv
  running hb := nomatch hb
  runningPre hb := nomatch hb
  pendingBlock hp := nomatch hp
  noReadAfterShort hb := nomatch hb
  chunkAligned hb := nomatch hb
  consumed hb := nomatch hb
  heldInReset hlow := nomatch hlow

/-- Settles O54: each kind of transition is an operation that keeps the invariant. -/
theorem invariantIsKeptByEveryStep : Obligations.InvariantIsKeptByEveryStep :=
  fun _ _ hinv hstep => hinv.step hstep

end

namespace Sys2Proof.Machine

variable {s t : State}

/-! O57, O58, O59: the streams (20_memory.md R86; 43_stream_driver.md R218; 10_state.md R41). -/

/-- An enabled stream step stays enabled while the core is as it was and the host only adds at the ports. -/
theorem streamStep_isSome_of_portsKept (hsome : s.streamStep.isSome = true) (hout : t = s.withOutsideOf t)
    (hkept : s.PortsKept t) : t.streamStep.isSome = true := by
  obtain ⟨hb, he, hanswer⟩ := State.streamStep_isSome.1 hsome
  have hbusy : t.busy = true := by rw [hout]; exact hb
  have herr : t.err = false := by rw [hout]; exact he
  have hpend : t.sPend = s.sPend := by rw [hout]; rfl
  refine State.streamStep_isSome.2 ⟨hbusy, herr, ?_⟩
  rw [hpend]
  obtain ⟨hp, hfail | hready⟩ | ⟨hp, hfail | hchunk | hend⟩ := hanswer
  · exact .inl ⟨hp, .inl (hkept.outFail hfail)⟩
  · exact .inl ⟨hp, .inr (hkept.accepted hb hp hready)⟩
  · exact .inr ⟨hp, .inl (hkept.inFail hfail)⟩
  · exact .inr ⟨hp, .inr (.inl (hchunk.trans hkept.unread_length_le))⟩
  · exact .inr ⟨hp, .inr (.inr (hkept.inEnd hend))⟩

/-- A turn of the core appends output and moves the read position on. -/
theorem coreTurn_streams (s : State) :
    (∃ o, s.coreTurn.output = s.output ++ o) ∧ s.coreTurn.input = s.input ∧ s.inPtr ≤ s.coreTurn.inPtr := by
  obtain hstep | ⟨-, hstays⟩ := State.coreTurn_cases s
  · obtain ⟨-, -, ⟨-, hphase⟩ | ⟨-, hphase⟩⟩ := State.streamStep_cases hstep
    · obtain ⟨m, -, ht⟩ | ⟨-, -, ht⟩ := State.writePhase_cases hphase <;> rw [ht]
      · exact ⟨⟨_, rfl⟩, rfl, Nat.le_refl _⟩
      · exact ⟨⟨_, rfl⟩, rfl, Nat.le_refl _⟩
    · obtain ⟨-, ht⟩ | ⟨-, -, -, ht⟩ | ⟨-, -, -, ht⟩ := State.readPhase_cases hphase <;> rw [ht]
      · exact ⟨⟨[], by simp⟩, rfl, Nat.le_refl _⟩
      · exact ⟨⟨[], by simp⟩, rfl, Nat.le_refl _⟩
      · exact ⟨⟨[], by simp⟩, by simp, by simp⟩
  · rw [hstays]
    exact ⟨⟨[], by simp⟩, rfl, Nat.le_refl _⟩

/-- How a turn of the core takes BUSY from 1 to 0 (R203, R205, R209, R263). -/
theorem coreTurn_ends_busy (hb : s.busy = true) (ht : s.coreTurn.busy = false) :
    s.coreTurn.err = true ∨
    (s.sPend = false ∧ s.unread = [] ∧ s.inEnd = true ∧ s.coreTurn.output = s.output) ∨
    (s.sPend = true ∧ s.sFinal = true ∧
      s.coreTurn.output = s.output ++ bytesOfBlock s.cfg.byteOrder s.ob) := by
  obtain hstep | ⟨-, hstays⟩ := State.coreTurn_cases s
  · obtain ⟨-, -, ⟨hpend, hphase⟩ | ⟨hpend, hphase⟩⟩ := State.streamStep_cases hstep
    · obtain ⟨m, -, hturn⟩ | ⟨-, -, hturn⟩ := State.writePhase_cases hphase <;> rw [hturn] at ht ⊢
      · exact .inl rfl
      · exact .inr (.inr ⟨hpend, by simpa [hb] using ht, rfl⟩)
    · obtain ⟨-, hturn⟩ | ⟨-, hend, hunread, hturn⟩ | ⟨-, -, -, hturn⟩ := State.readPhase_cases hphase <;>
        rw [hturn] at ht ⊢
      · exact .inl rfl
      · exact .inr (.inl ⟨hpend, hunread, hend, rfl⟩)
      · simp [hb] at ht
  · simp [hstays, hb] at ht

end Sys2Proof.Machine

section
open Sys2Proof Sys2Proof.Machine

/-- Settles O57: the busy core takes no register write and no command, so an event raises an error, resets, or leaves
the core as it was with the ports kept. -/
theorem enabledStreamStepStaysEnabled : Obligations.EnabledStreamStepStaysEnabled := by
  intro s t e rest hp hcore hsome hstep
  obtain ⟨hb, -, -⟩ := State.streamStep_isSome.1 hsome
  have hnotTurn : ∀ q, ¬ (s.pending = [] ∨ s.pending = .core :: q) := by
    rintro q (hq | hq) <;> rw [hp] at hq <;> cases hq
    exact hcore rfl
  obtain ⟨q, hturn, -⟩ | ⟨hreset, q, b, rfl⟩ | hout | ⟨c, p, r, -, -, -, rfl⟩ | ⟨r, v, q, ⟨-, hidle, -⟩, -⟩ |
    ⟨i, v, q, ⟨-, hidle, -⟩, -⟩ := step_cases hstep
  · exact absurd hturn (hnotTurn q)
  · exact .inr ⟨rfl, .inr hreset⟩
  · obtain ⟨q, hturn, -⟩ | ⟨q, -, hattach⟩ | ⟨q, hlow, rfl⟩ | hkept := step_ports hstep
    · exact absurd hturn (hnotTurn q)
    · have hfree : s.busy = false := (hostAttach_eq_next hattach).1
      simp [hb] at hfree
    · exact .inr ⟨rfl, .inr (.inl ⟨q, hlow⟩)⟩
    · exact .inl (streamStep_isSome_of_portsKept hsome hout hkept)
  · exact .inr ⟨rfl, .inl rfl⟩
  · simp [hb] at hidle
  · simp [hb] at hidle

/-- Settles O58: a turn of the core appends and moves on, and no other transition but an attachment touches what
stands in the streams. -/
theorem streamsAreNeverRolledBack : Obligations.StreamsAreNeverRolledBack := by
  intro s t hstep hnoAttach
  obtain ⟨rest, -, rfl⟩ | ⟨rest, hattach, -⟩ | ⟨rest, -, rfl⟩ | hkept := step_ports hstep
  · obtain ⟨ho, hi, hptr⟩ := coreTurn_streams { s with pending := rest }
    exact ⟨ho, ⟨[], by simp [hi]⟩, hptr⟩
  · exact absurd hattach (hnoAttach rest)
  · exact ⟨⟨[], by simp⟩, ⟨[], by simp⟩, Nat.le_refl _⟩
  · exact ⟨⟨[], by simp [hkept.output]⟩, hkept.input, hkept.inPtr.ge⟩

/-- Settles O59: while BUSY = 1 the core takes no register write and no command, so BUSY falls by a reset, an error or
a turn of the core. -/
theorem busyFallsOnlyAtStreamEndErrorOrReset : Obligations.BusyFallsOnlyAtStreamEndErrorOrReset := by
  intro s t hb hstep ht
  obtain ⟨rest, -, rfl⟩ | ⟨hreset, -⟩ | hout | ⟨c, p, r, -, -, -, rfl⟩ | ⟨r, v, rest, ⟨-, hidle, -⟩, -⟩ |
    ⟨i, v, rest, ⟨-, hidle, -⟩, -⟩ := step_cases hstep
  · exact .inr (coreTurn_ends_busy (s := { s with pending := rest }) hb ht)
  · exact .inl hreset
  · rw [hout] at ht
    simp [hb] at ht
  · exact .inr (.inl rfl)
  · simp [hb] at hidle
  · simp [hb] at hidle

end

namespace Sys2Proof

/-- No two registers stand at one offset (10_state.md R31). -/
theorem Reg.offset_injective : Function.Injective Reg.offset := by
  intro r q h
  have hq : some r = some q := by rw [← Reg.ofOffset_offset r, h, Reg.ofOffset_offset]
  exact Option.some.inj hq

end Sys2Proof

namespace Sys2Proof.Machine

variable {s t : State} {r : Reg} {off : Offset} {v : Word}

/-! Reads and writes of the register bus, case by case (20_memory.md R80, R81; 60_exceptions.md R264, R266). -/

/-- A good read returns the register's value; only the read of an unwritten register uses up a draw (R79, R80). -/
theorem busRead_of_readable (hn : s.rstN = true) (hr : r.readable = true) :
    busRead r.offset s = (s.value r, if s.written r then s else s.nextDraw) := by
  simp [busRead, hn, hr, Reg.ofOffset_offset]

theorem busRead_of_written (hn : s.rstN = true) (hr : r.readable = true) (hw : s.written r = true) :
    busRead r.offset s = (s.stored r, s) := by
  simp [busRead_of_readable hn hr, State.value, hw]

theorem busRead_of_low (hn : s.rstN = false) (off : Offset) : busRead off s = (0#64, s) := by
  simp [busRead, hn]

theorem busWrite_of_low (hn : s.rstN = false) (off : Offset) (v : Word) : busWrite off v s = .next s := by
  simp [busWrite, hn]

/-- The SRST word is taken whatever BUSY and ERR are. -/
theorem busWrite_srst (hn : s.rstN = true) :
    busWrite 0x000#12 0x00000000000000FF#64 s = .next s.resetCore := by
  simp [busWrite, hn, isSrst]

theorem busWrite_of_err (hn : s.rstN = true) (he : s.err = true)
    (hsrst : ¬ (off = 0x000#12 ∧ v = 0x00000000000000FF#64)) : busWrite off v s = .next s := by
  simp [busWrite, hn, he, isSrst_eq_false hsrst]

theorem busWrite_of_busy (hn : s.rstN = true) (he : s.err = false) (hb : s.busy = true) (hw : r.writable = true)
    (hsrst : ¬ (r.offset = 0x000#12 ∧ v = 0x00000000000000FF#64)) :
    busWrite r.offset v s = .next (s.raiseError .busyWrite) := by
  simp [busWrite, hn, he, hb, hw, isSrst_eq_false hsrst, Reg.ofOffset_offset]

/-- A free core takes the write to a data register. -/
theorem busWrite_of_idle (hidle : s.idle) (hw : r.writable = true) (hc : r ≠ .cmd) :
    busWrite r.offset v s = .next (s.writeReg v r) := by
  obtain ⟨hn, hb, he⟩ := hidle
  have hsrst : isSrst r.offset v = false := isSrst_eq_false fun h => hc (Reg.offset_injective h.1)
  simp [busWrite, hn, hb, he, hw, hc, hsrst, Reg.ofOffset_offset]

/-- The writable registers stand at the six offsets of R81. -/
theorem exists_writable_of_mem (h : off ∈ [0x000#12, 0x010#12, 0x018#12, 0x020#12, 0x028#12, 0x030#12]) :
    ∃ r : Reg, r.writable = true ∧ off = r.offset := by
  simp only [List.mem_cons, List.not_mem_nil, or_false] at h
  obtain rfl | rfl | rfl | rfl | rfl | rfl := h
  exacts [⟨.cmd, rfl, rfl⟩, ⟨.key0, rfl, rfl⟩, ⟨.key1, rfl, rfl⟩, ⟨.x, rfl, rfl⟩, ⟨.y, rfl, rfl⟩, ⟨.rkin, rfl, rfl⟩]

/-- To issue a command's word is to run the command (30_encoding.md R101). -/
theorem issue_encode (i : Instr) (s : State) : issue (encode i) s = exec i s := by
  simp [issue]

/-- A step that issues a command to a free core runs it (R81, R101). -/
theorem step_stmtCMD_of_idle {i : Instr} {rest : List HostEvent} (hidle : s.idle)
    (hp : s.pending = stmtCMD i :: rest) : step s = exec i { s with pending := rest } :=
  (step_cmd_of_idle hidle hp).trans (issue_encode i _)

/-- Error entry while ERR = 1 keeps the first code (60_exceptions.md R263). -/
theorem raiseError_of_err (he : s.err = true) (code : ErrCode) :
    s.raiseError code = { s with busy := false, sPend := false } := by
  simp [State.raiseError, he]

/-- After a reset the core is as R55 says, and its surroundings as they were. -/
theorem resetFrom_resetCore (s : State) : s.ResetFrom s.resetCore where
  status := ⟨rfl, rfl, rfl, rfl, rfl, rfl⟩
  unwritten r hcmd hstatus := by
    cases r with
    | cmd => exact absurd rfl hcmd
    | status => exact absurd rfl hstatus
    | key0 | key1 | x | y | rkin | rk _ => rfl
  stream := ⟨rfl, rfl, rfl, rfl, rfl⟩
  streams := ⟨rfl, rfl, rfl, rfl, rfl, rfl, rfl⟩
  outside := ⟨rfl, rfl, rfl, rfl⟩

/-! STATUS (10_state.md R40). -/

theorem statusWord_getLsbD_low (s : State) :
    s.statusWord.getLsbD 0 = s.busy ∧ s.statusWord.getLsbD 1 = s.kv0 ∧ s.statusWord.getLsbD 2 = s.kv1 ∧
    s.statusWord.getLsbD 3 = s.schedValid ∧ s.statusWord.getLsbD 4 = s.err := by
  simp [State.statusWord, zextBit]

/-- Above ERR only the error code has bits. -/
theorem statusWord_getLsbD_of_ge {n : Nat} (hn : 5 ≤ n) :
    s.statusWord.getLsbD n = (decide (8 ≤ n) && s.errCode.bits.getLsbD (n - 8)) := by
  have h4 : n - 4 ≠ 0 := by omega
  have h3 : n - 3 ≠ 0 := by omega
  have h2 : n - 2 ≠ 0 := by omega
  have h1 : n - 1 ≠ 0 := by omega
  have h0 : n ≠ 0 := by omega
  by_cases hcode : n < 12
  · have hn64 : n < 64 := by omega
    simp [State.statusWord, zextBit, h4, h3, h2, h1, h0, hn64, ← decide_not]
  · have hout : s.errCode.bits.getLsbD (n - 8) = false := BitVec.getLsbD_of_ge _ _ (by omega)
    simp [State.statusWord, zextBit, h4, h3, h2, h1, h0, hout]

theorem statusWord_errCode (s : State) : s.statusWord.extractLsb' 8 4 = s.errCode.bits := by
  apply BitVec.eq_of_getLsbD_eq
  intro i hi
  rw [BitVec.getLsbD_extractLsb', statusWord_getLsbD_of_ge (by omega)]
  simp [hi]

theorem statusWord_reserved_low (s : State) : s.statusWord.extractLsb' 5 3 = 0#3 := by
  apply BitVec.eq_of_getLsbD_eq
  intro i hi
  have hlow : ¬ 8 ≤ 5 + i := by omega
  rw [BitVec.getLsbD_extractLsb', statusWord_getLsbD_of_ge (by omega)]
  simp [hlow]

theorem statusWord_reserved_high (s : State) : s.statusWord.extractLsb' 12 52 = 0#52 := by
  apply BitVec.eq_of_getLsbD_eq
  intro i hi
  have hout : s.errCode.bits.getLsbD (12 + i - 8) = false := BitVec.getLsbD_of_ge _ _ (by omega)
  rw [BitVec.getLsbD_extractLsb', statusWord_getLsbD_of_ge (by omega)]
  simp [hout]

/-! Host events (30_encoding.md R107). -/

@[simp] theorem busRead_reads (off : Offset) (s : State) : (busRead off s).2.reads = s.reads := by
  obtain h | ⟨-, -, h⟩ | h := busRead_cases off s <;> rw [h] <;> rfl

/-- The host keeps what its read returned. -/
theorem hostRead_eq (off : Offset) (s : State) :
    hostRead off s = { (busRead off s).2 with reads := s.reads ++ [(busRead off s).1] } := by
  rw [hostRead, busRead_reads]

/-- A WAIT keeps the STATUS word it read, and comes again after a turn of the core while BUSY = 1. -/
theorem hostWait_eq (hn : s.rstN = true) : hostWait s =
    { s with
      reads := s.reads ++ [s.statusWord]
      pending := if s.busy then .core :: .wait :: s.pending else s.pending } := by
  have hread : busRead Reg.status.offset s = (s.statusWord, s) := busRead_of_written hn rfl rfl
  obtain ⟨hbit, -⟩ := statusWord_getLsbD_low s
  unfold hostWait
  rw [hostRead_eq, hread]
  dsimp only
  rw [hbit]
  cases s.busy <;> rfl

/-- The host's stop of acceptance does not reach a write request that stands (20_memory.md R85, R86). -/
theorem hostReady_of_standing (hb : s.busy = true) (hp : s.sPend = true) (hr : s.outReady = true) (ready : Bool) :
    hostReady ready s = s := by
  have hkept : (ready || (s.busy && s.sPend && s.outReady)) = s.outReady := by simp [hb, hp, hr]
  rw [hostReady, hkept]

theorem hostReady_of_not_standing (h : s.busy = false ∨ s.sPend = false ∨ s.outReady = false) (ready : Bool) :
    hostReady ready s = { s with outReady := ready } := by
  have hnone : (s.busy && s.sPend && s.outReady) = false := by
    obtain h | h | h := h <;> simp [h]
  simp [hostReady, hnone]

end Sys2Proof.Machine

section
open Sys2Proof Sys2Proof.Machine

/-- Settles O41: each readable register stands at its offset, and its read returns what it holds once it is written. -/
theorem goodReadReturnsRegister : Obligations.GoodReadReturnsRegister :=
  fun _ hn => ⟨busRead_of_written (r := .status) hn rfl rfl, busRead_of_written (r := .key0) hn rfl,
    busRead_of_written (r := .key1) hn rfl, busRead_of_written (r := .x) hn rfl, busRead_of_written (r := .y) hn rfl,
    busRead_of_written (r := .rkin) hn rfl, fun i => busRead_of_written (r := .rk i) hn rfl⟩

/-- Settles O42: every register but CMD can be read, and while it is unwritten its value is the free one. -/
theorem unwrittenReadIsFree : Obligations.UnwrittenReadIsFree := by
  intro s r hn hcmd hw
  have hr : r.readable = true := by
    cases r with
    | cmd => exact absurd rfl hcmd
    | status | key0 | key1 | x | y | rkin | rk _ => rfl
  rw [busRead_of_readable hn hr]
  simp [State.value, hw, State.nextDraw]

/-- Settles O44: a free core takes the write, whose effect is the register's. -/
theorem registerWritesTakeEffect : Obligations.RegisterWritesTakeEffect :=
  fun _ _ hidle => ⟨busWrite_of_idle (r := .key0) hidle rfl (by decide),
    busWrite_of_idle (r := .key1) hidle rfl (by decide), busWrite_of_idle (r := .x) hidle rfl (by decide),
    busWrite_of_idle (r := .y) hidle rfl (by decide), busWrite_of_idle (r := .rkin) hidle rfl (by decide)⟩

/-- Settles O45: the write passes every check before BUSY, and error entry ends the stream. -/
theorem busyWriteAbortsStream : Obligations.BusyWriteAbortsStream := by
  intro s off v hn he hb hoff hsrst
  obtain ⟨r, hw, rfl⟩ := exists_writable_of_mem hoff
  rw [busWrite_of_busy hn he hb hw hsrst, raiseError_of_noErr he]

/-- Settles O46: ERR is tested right after the SRST word, and a bad read raises nothing while it is set. -/
theorem errorStateIgnoresAccesses : Obligations.ErrorStateIgnoresAccesses := by
  intro s off hn he
  refine ⟨fun v hsrst => busWrite_of_err hn he hsrst, fun hoff => ?_⟩
  rw [busRead_of_not_readable hn fun _ h => not_readable_of_bad_offset (h ▸ hoff), State.badRead, if_pos he]

/-- Settles O47: both cases of error entry. -/
theorem firstErrorIsKept : Obligations.FirstErrorIsKept :=
  fun _ c => ⟨fun he => raiseError_of_noErr he c, fun he => raiseError_of_err he c⟩

/-- Settles O5: SRST is taken ahead of every other check, another command by a free core. -/
theorem stepRunsIssuedCommand : Obligations.StepRunsIssuedCommand := by
  intro s v i rest hp hdecode hn hfree
  obtain rfl := decode_eq_ok_iff.1 hdecode
  obtain rfl | hidle := hfree
  · exact (step_cons hp).trans (busWrite_srst hn)
  · exact step_stmtCMD_of_idle hidle hp

/-- Settles O22: the word 0 is NOP's. -/
theorem nopChangesNothing : Obligations.NopChangesNothing :=
  ⟨fun _ => exec_nop, fun _ _ hidle hp => step_stmtCMD_of_idle (i := .nop) hidle hp⟩

/-- Settles O23: SRST is the reset, as a command and as a write in any state out of reset. -/
theorem srstResetsInEveryState : Obligations.SrstResetsInEveryState :=
  ⟨fun s => ⟨_, exec_srst, resetFrom_resetCore s⟩,
    fun _ _ hn hp => ⟨_, (step_cons hp).trans (busWrite_srst hn), resetFrom_resetCore _⟩⟩

/-- Settles O24: the low level is a reset, and holds off every access. -/
theorem rstNResetsAndHolds : Obligations.RstNResetsAndHolds :=
  ⟨fun s rest hp => ⟨_, step_cons hp, resetFrom_resetCore { s with pending := rest, rstN := false }⟩,
    fun _ off v hn => ⟨busRead_of_low hn off, busWrite_of_low hn off v⟩, fun _ _ hp => step_cons hp⟩

/-- Settles O25: the reset state is what a reset makes of itself, and its STATUS word is 0. -/
theorem resetStateIsTheSpecs : Obligations.ResetStateIsTheSpecs :=
  ⟨resetFrom_resetCore State.reset, ⟨rfl, rfl, rfl⟩, (goodReadReturnsRegister State.reset rfl).1⟩

/-- Settles O39: the low five bits are flags, and above them only ERRCODE has bits. -/
theorem statusFieldLayout : Obligations.StatusFieldLayout := by
  intro s
  obtain ⟨hbusy, hkv0, hkv1, hvalid, herr⟩ := statusWord_getLsbD_low s
  rw [statusWord_errCode]
  refine ⟨hbusy, hkv0, hkv1, hvalid, herr, statusWord_reserved_low s, statusWord_reserved_high s, ?_⟩
  cases s.errCode <;> decide

/-- Settles O40: the step is the host event with the event taken off, and each event's effect is its definition's. -/
theorem hostEventsAreSteps : Obligations.HostEventsAreSteps := by
  intro s rest
  refine ⟨fun off hp => ⟨_, _, rfl, ?_⟩, fun _ _ hp => step_cons hp, fun hp hn => ?_,
    fun bs hp => ⟨fun he => ?_, fun he => ?_⟩, fun hp => step_cons hp, fun hp => ⟨fun hb => ?_, fun hb => ?_⟩,
    fun ready hp => ⟨fun ⟨hb, hpend, hr⟩ => ?_, fun hnot => ?_⟩, fun hp => step_cons hp, fun m hp => step_cons hp⟩
  all_goals rw [step_cons hp]
  · exact congrArg Host.Outcome.next (hostRead_eq off { s with pending := rest })
  · exact congrArg Host.Outcome.next (hostWait_eq (s := { s with pending := rest }) hn)
  · simp [hostEvent, hostInput, he]
  · simp [hostEvent, hostInput, he]
  · simp [hostEvent, hostAttach, hb]
  · simp [hostEvent, hostAttach, hb]
  · exact congrArg Host.Outcome.next (hostReady_of_standing (s := { s with pending := rest }) hb hpend hr ready)
  · exact congrArg Host.Outcome.next (hostReady_of_not_standing (s := { s with pending := rest }) hnot ready)

/-- Settles O49: the meaning of each command ends in a next state. -/
theorem everyCommandAnswersNext : Obligations.EveryCommandAnswersNext := by
  intro i s
  cases i with
  | nop => exact ⟨_, exec_nop⟩
  | rndF => exact ⟨_, exec_rndF⟩
  | rndI => exact ⟨_, exec_rndI⟩
  | ksExp => exact ⟨_, exec_ksExp⟩
  | blkEncPre => exact ⟨_, exec_blkEncPre⟩
  | blkDecPre => exact ⟨_, exec_blkDecPre⟩
  | blkEncFus => exact ⟨_, exec_blkEncFus⟩
  | blkDecFus => exact ⟨_, exec_blkDecFus⟩
  | strEncPre => exact ⟨_, exec_stream .enc .pre⟩
  | strDecPre => exact ⟨_, exec_stream .dec .pre⟩
  | strEncFus => exact ⟨_, exec_stream .enc .fus⟩
  | strDecFus => exact ⟨_, exec_stream .dec .fus⟩
  | srst => exact ⟨_, exec_srst⟩

end

namespace Sys2Proof.Machine

variable {s t : State}

/-! O50 to O52, O60: what changes the key and its schedule (10_state.md R33, R37, R42, R43; 70_reset_and_hazards.md
R303). -/

/-- What a transition from `s` to `t` does to the key words, their marks, RK and SCHED_VALID, and when. -/
inductive KeyUpdate (s t : State) : Prop where
  | kept (k0 : t.k0 = s.k0) (k1 : t.k1 = s.k1) (kv0 : t.kv0 = s.kv0) (kv1 : t.kv1 = s.kv1) (rk : t.rk = s.rk)
      (valid : t.schedValid = s.schedValid)
  | reset (resets : s.resets) (valid : t.schedValid = false)
  | writeKey0 (v : Word) (rest : List HostEvent) (idle : s.idle) (next : s.pending = .wr 0x010#12 v :: rest)
      (eq : t = ({ s with pending := rest } : State).writeReg v .key0)
  | writeKey1 (v : Word) (rest : List HostEvent) (idle : s.idle) (next : s.pending = .wr 0x018#12 v :: rest)
      (eq : t = ({ s with pending := rest } : State).writeReg v .key1)
  | expanded (i : Instr) (rest : List HostEvent) (idle : s.idle) (mem : i ∈ [Instr.ksExp, .strEncPre, .strDecPre])
      (next : s.pending = .wr 0x000#12 (encode i) :: rest) (key : s.keyValid = true)
      (k0 : t.k0 = s.k0) (k1 : t.k1 = s.k1) (kv0 : t.kv0 = s.kv0) (kv1 : t.kv1 = s.kv1)
      (rk : t.rk = expand s.k0 s.k1) (valid : t.schedValid = true)

/-- A command a free core issues expands the key, resets, or leaves key and schedule alone. -/
theorem exec_keyUpdate {i : Instr} {rest : List HostEvent} (hidle : s.idle)
    (hp : s.pending = .wr 0x000#12 (encode i) :: rest) (h : exec i { s with pending := rest } = .next t) :
    KeyUpdate s t := by
  obtain ⟨-, rfl⟩ | ⟨_, -, rfl⟩ | ⟨rfl, hkey, rfl⟩ | ⟨_, -, -, rfl⟩ | ⟨_, -, -, rfl⟩ | ⟨_, -, -, rfl⟩ |
    ⟨d, k, hi, hkey, rfl⟩ | ⟨-, rfl⟩ | ⟨-, rfl⟩ | ⟨rfl, rfl⟩ := exec_cases h
  · exact .kept rfl rfl rfl rfl rfl rfl -- NOP
  · exact .kept rfl rfl rfl rfl rfl rfl -- RND_F, RND_I
  · exact .expanded .ksExp rest hidle (by decide) hp hkey rfl rfl rfl rfl rfl rfl -- KS_EXP
  · exact .kept rfl rfl rfl rfl rfl rfl -- BLK_ENC_PRE, BLK_DEC_PRE
  · exact .kept rfl rfl rfl rfl rfl rfl -- BLK_ENC_FUS
  · exact .kept rfl rfl rfl rfl rfl rfl -- BLK_DEC_FUS
  · cases k with -- the start of a stream
    | pre => exact .expanded i rest hidle (by cases d <;> rw [hi] <;> decide) hp hkey rfl rfl rfl rfl rfl rfl
    | fus => exact .kept rfl rfl rfl rfl rfl rfl
  · exact .kept rfl rfl rfl rfl rfl rfl -- NO_KEY
  · exact .kept rfl rfl rfl rfl rfl rfl -- NO_SCHED
  · exact .reset (.inr ⟨hidle.1, rest, hp⟩) rfl -- SRST

/-- Every transition updates the key and its schedule in one of these ways. -/
theorem step_keyUpdate (h : step s = .next t) : KeyUpdate s t := by
  obtain ⟨rest, -, rfl⟩ | ⟨hreset, rest, b, rfl⟩ | hout | ⟨c, p, r, -, -, -, rfl⟩ | ⟨r, v, rest, hidle, hp, rfl⟩ |
    ⟨i, v, rest, hidle, hp, hdecode, hexec⟩ := step_cases h
  · obtain ⟨hk0, hk1, hkv0, hkv1, hrk, -, hvalid, -⟩ := coreTurn_frame { s with pending := rest }
    exact .kept hk0 hk1 hkv0 hkv1 hrk hvalid
  · exact .reset hreset rfl
  · rw [hout]; exact .kept rfl rfl rfl rfl rfl rfl
  · exact .kept rfl rfl rfl rfl rfl rfl -- an error is raised
  · cases r with
    | key0 => exact .writeKey0 v rest hidle hp rfl
    | key1 => exact .writeKey1 v rest hidle hp rfl
    | cmd | status | x | y | rkin | rk _ => exact .kept rfl rfl rfl rfl rfl rfl
  · exact exec_keyUpdate hidle (decode_eq_ok_iff.1 hdecode ▸ hp) hexec

/-- Every operation leaves the byte order alone (20_memory.md R74). -/
theorem exec_cfg {i : Instr} (h : exec i s = .next t) : t.cfg = s.cfg := by
  obtain ⟨-, rfl⟩ | ⟨_, -, rfl⟩ | ⟨-, -, rfl⟩ | ⟨_, -, -, rfl⟩ | ⟨_, -, -, rfl⟩ | ⟨_, -, -, rfl⟩ |
    ⟨d, k, -, -, rfl⟩ | ⟨-, rfl⟩ | ⟨-, rfl⟩ | ⟨-, rfl⟩ := exec_cases h <;> simp

end Sys2Proof.Machine

section
open Sys2Proof Sys2Proof.Machine

/-- Settles O50: of the five updates only the write to a key register changes that key word or its mark. -/
theorem keysChangeOnlyByHostWrite : Obligations.KeysChangeOnlyByHostWrite := by
  intro s t hstep hreset
  cases step_keyUpdate hstep with
  | kept k0 k1 kv0 kv1 => exact ⟨.inl ⟨k0, kv0⟩, .inl ⟨k1, kv1⟩⟩
  | reset resets => exact absurd resets hreset
  | writeKey0 v rest idle next eq =>
    subst eq
    exact ⟨.inr ⟨v, rest, next, idle, rfl, rfl, rfl⟩, .inl ⟨rfl, rfl⟩⟩
  | writeKey1 v rest idle next eq =>
    subst eq
    exact ⟨.inl ⟨rfl, rfl⟩, .inr ⟨v, rest, next, idle, rfl, rfl, rfl⟩⟩
  | expanded i rest idle mem next key k0 k1 kv0 kv1 => exact ⟨.inl ⟨k0, kv0⟩, .inl ⟨k1, kv1⟩⟩

/-- Settles O51: of the five updates only the expansion changes RK. -/
theorem rkChangesOnlyByExpansion : Obligations.RkChangesOnlyByExpansion := by
  intro s t hstep hreset
  cases step_keyUpdate hstep with
  | kept k0 k1 kv0 kv1 rk => exact .inl rk
  | reset resets => exact absurd resets hreset
  | writeKey0 v rest idle next eq => exact .inl (by rw [eq]; rfl)
  | writeKey1 v rest idle next eq => exact .inl (by rw [eq]; rfl)
  | expanded i rest idle mem next key _ _ _ _ rk valid => exact .inr ⟨i, rest, mem, next, idle, key, rk, valid⟩

/-- Settles O52: the expansion sets SCHED_VALID, a key write and a reset clear it. -/
theorem schedValidChangesOnlyAsListed : Obligations.SchedValidChangesOnlyAsListed := by
  intro s t hstep hchange
  cases step_keyUpdate hstep with
  | kept _ _ _ _ _ valid => exact absurd valid hchange
  | reset resets valid => exact .inr ⟨valid, .inl resets⟩
  | writeKey0 v rest idle next eq => exact .inr ⟨by rw [eq]; rfl, .inr ⟨idle, v, rest, .inl next⟩⟩
  | writeKey1 v rest idle next eq => exact .inr ⟨by rw [eq]; rfl, .inr ⟨idle, v, rest, .inr next⟩⟩
  | expanded i rest idle mem next key _ _ _ _ _ valid => exact .inl ⟨valid, idle, key, i, rest, mem, next⟩

/-- Settles O56: BYTE_ORDER is a parameter, which no operation writes. -/
theorem byteOrderNeverChanges : Obligations.ByteOrderNeverChanges := by
  intro s t hstep
  obtain ⟨rest, -, rfl⟩ | ⟨-, rest, b, rfl⟩ | hout | ⟨c, p, r, -, -, -, rfl⟩ | ⟨r, v, rest, -, -, rfl⟩ |
    ⟨i, v, rest, -, -, -, hexec⟩ := step_cases hstep
  · obtain ⟨-, -, -, -, -, -, -, hcfg, -⟩ := coreTurn_frame { s with pending := rest }
    exact hcfg
  · rfl -- a reset
  · rw [hout]; rfl
  · rfl -- an error is raised
  · cases r <;> rfl
  · have hcfg := exec_cfg hexec
    exact hcfg

end

namespace Sys2Proof.Machine

variable {s t : State}

/-- Without a valid schedule, only an expansion makes one (R43). -/
theorem schedValid_false_of_step (hstep : step s = .next t) (hvalid : s.schedValid = false)
    (hno : ∀ i ∈ [Instr.ksExp, .strEncPre, .strDecPre], ∀ rest, s.pending ≠ stmtCMD i :: rest) :
    t.schedValid = false := by
  cases step_keyUpdate hstep with
  | kept _ _ _ _ _ valid => rw [valid, hvalid]
  | reset _ valid => exact valid
  | writeKey0 v rest idle next eq => rw [eq]; rfl
  | writeKey1 v rest idle next eq => rw [eq]; rfl
  | expanded i rest idle mem next => exact absurd next (hno i mem rest)

/-- Precomputed block command without a schedule is NO_SCHED (42_block_cipher.md R172, R174). -/
theorem exec_blkPre_of_not_schedValid {i : Instr} (hi : i ∈ [Instr.blkEncPre, .blkDecPre])
    (hvalid : s.schedValid = false) : exec i s = .next (s.raiseError .noSched) := by
  simp only [List.mem_cons, List.not_mem_nil, or_false] at hi
  obtain rfl | rfl := hi
  · simp [exec_blkEncPre, hvalid]
  · simp [exec_blkDecPre, hvalid]

/-- On a core that is not free, a write to CMD of any word but SRST's is ignored or raises BUSY_WRITE (R266). -/
theorem busWrite_cmd_of_not_idle {v : Word} (hidle : ¬ s.idle) (hv : v ≠ 0x00000000000000FF#64) :
    busWrite 0x000#12 v s = .next s ∨ busWrite 0x000#12 v s = .next (s.raiseError .busyWrite) := by
  have hsrst : ¬ (Reg.cmd.offset = 0x000#12 ∧ v = 0x00000000000000FF#64) := fun h => hv h.2
  cases hn : s.rstN with
  | false => exact .inl (busWrite_of_low hn _ v)
  | true =>
    cases he : s.err with
    | true => exact .inl (busWrite_of_err hn he hsrst)
    | false =>
      cases hb : s.busy with
      | true => exact .inr (busWrite_of_busy hn he hb rfl hsrst)
      | false => exact absurd ⟨hn, hb, he⟩ hidle

/-- Without a valid schedule a precomputed block command does no more than raise an error: NO_SCHED on a free core. -/
theorem step_blkPre_of_not_schedValid {i : Instr} {rest : List HostEvent} (hi : i ∈ [Instr.blkEncPre, .blkDecPre])
    (hp : s.pending = stmtCMD i :: rest) (hvalid : s.schedValid = false) :
    step s = .next { s with pending := rest } ∧ ¬ s.idle ∨
    ∃ c, step s = .next (({ s with pending := rest } : State).raiseError c) ∧ (s.idle → c = .noSched) := by
  by_cases hidle : s.idle
  · refine .inr ⟨.noSched, ?_, fun _ => rfl⟩
    rw [step_stmtCMD_of_idle hidle hp, exec_blkPre_of_not_schedValid hi]
    exact hvalid
  · have hword : ∀ c ∈ [Instr.blkEncPre, .blkDecPre], encode c ≠ 0x00000000000000FF#64 := by decide
    obtain hstep | hstep := busWrite_cmd_of_not_idle (s := { s with pending := rest }) hidle (hword i hi)
    · exact .inl ⟨(step_cons hp).trans hstep, hidle⟩
    · exact .inr ⟨.busyWrite, (step_cons hp).trans hstep, fun h => absurd h hidle⟩

/-- A write to either key register of a free core clears SCHED_VALID (R33). -/
theorem schedValid_false_of_key_write {r : Reg} {v : Word} {rest : List HostEvent} (hr : r ∈ [Reg.key0, .key1])
    (hidle : s.idle) (hp : s.pending = stmtWR r v :: rest) (hstep : step s = .next t) : t.schedValid = false := by
  have hrest : ({ s with pending := rest } : State).idle := hidle
  rw [step_cons hp] at hstep
  simp only [List.mem_cons, List.not_mem_nil, or_false] at hr
  obtain rfl | rfl := hr
  · cases hstep.symm.trans (busWrite_of_idle (r := .key0) hrest rfl (by decide)); rfl
  · cases hstep.symm.trans (busWrite_of_idle (r := .key1) hrest rfl (by decide)); rfl

end Sys2Proof.Machine

section
open Sys2Proof Sys2Proof.Machine

/-- Settles O60: the key write leaves no valid schedule, by induction over the run none comes back, and without one the
block command raises an error and leaves X and Y. -/
theorem staleScheduleIsNeverUsed : Obligations.StaleScheduleIsNeverUsed := by
  intro run n r v i rest₀ rest hidle hr hp hrun hno hi hlast
  have hvalid : ∀ j, j ≤ n → (run (j + 1)).schedValid = false := by
    intro j hj
    induction j with
    | zero => exact schedValid_false_of_key_write hr hidle hp (hrun 0 hj)
    | succ j ih => exact schedValid_false_of_step (hrun (j + 1) hj) (ih (by omega)) (hno (j + 1) (by omega) hj)
  obtain ⟨hstep, hnot⟩ | ⟨c, hstep, hc⟩ := step_blkPre_of_not_schedValid hi hlast (hvalid n (Nat.le_refl n))
  · exact ⟨_, hstep, rfl, rfl, rfl, rfl, fun h => absurd h hnot⟩
  · refine ⟨_, hstep, rfl, rfl, rfl, rfl, fun h => ⟨rfl, ?_⟩⟩
    have he : (run (n + 1)).err = false := h.2.2
    simp [he, hc h]

end

namespace Sys2Proof.Machine

variable {s t : State}

/-! O14 to O16: the block transforms (42_block_cipher.md R179). -/

/-- The inverse rounds in the opposite order take the forward rounds back, the last one first. -/
theorem foldl_roundI_foldl_roundF (ks : List Word) (b : Block) :
    ks.reverse.foldl roundI (ks.foldl roundF b) = b := by
  induction ks generalizing b with
  | nil => rfl
  | cons k ks ih =>
    simp only [List.foldl_cons, List.reverse_cons, List.foldl_append, List.foldl_nil]
    rw [ih, roundI_roundF]

theorem foldl_roundF_foldl_roundI (ks : List Word) (b : Block) :
    ks.foldl roundF (ks.reverse.foldl roundI b) = b := by
  induction ks with
  | nil => rfl
  | cons k ks ih =>
    simp only [List.foldl_cons, List.reverse_cons, List.foldl_append, List.foldl_nil]
    rw [roundF_roundI, ih]

theorem dec_enc (rk : Vector Word 32) (b : Block) : dec rk (enc rk b) = b :=
  foldl_roundI_foldl_roundF rk.toList b

theorem enc_dec (rk : Vector Word 32) (b : Block) : enc rk (dec rk b) = b :=
  foldl_roundF_foldl_roundI rk.toList b

theorem expand_toList (k0 k1 : Word) : (expand k0 k1).toList = keysFrom 32 0 ⟨k0, k1⟩ := rfl

/-- Fused rounds are rounds over the keys that the pair gives along the way (R175). -/
theorem encFusedFrom_eq_foldl (n i : Nat) (p : KeyPair) (b : Block) :
    encFusedFrom n i p b = (keysFrom n i p).foldl roundF b := by
  induction n generalizing i p b with
  | zero => rfl
  | succ n ih => exact ih (i + 1) (genStep p i) (roundF b p.a)

theorem encFused_eq_enc (k0 k1 : Word) (b : Block) : encFused k0 k1 b = enc (expand k0 k1) b := by
  rw [encFused, encFusedFrom_eq_foldl, enc, expand_toList]

/-- To fold from the right is to fold the reversed list from the left. -/
theorem decFused_eq_dec (k0 k1 : Word) (b : Block) : decFused k0 k1 b = dec (expand k0 k1) b := by
  rw [decFused, decScratch, dec, List.foldl_reverse]

set_option maxRecDepth 10000 in
/-- The published reference vector (95_test_vectors.md E1), evaluated. -/
theorem enc_reference :
    enc (expand 0x0706050403020100#64 0x0f0e0d0c0b0a0908#64) ⟨0x6c61766975716520#64, 0x7469206564616d20#64⟩ =
      ⟨0xa65d985179783265#64, 0x7860fedf5c570d18#64⟩ := by
  decide

/-! The commands on X and Y: completion and errors (R172, R174, R176, R178; 60_exceptions.md R261). -/

theorem keyValid_eq_true (hkv0 : s.kv0 = true) (hkv1 : s.kv1 = true) : s.keyValid = true := by
  simp [State.keyValid, hkv0, hkv1]

theorem keyValid_eq_false (h : s.kv0 = false ∨ s.kv1 = false) : s.keyValid = false := by
  obtain h | h := h <;> simp [State.keyValid, h]

/-- A block that has been written is what the next command takes from X and Y (10_state.md R35). -/
theorem block_writeBlock (s : State) (b : Block) : (s.writeBlock b).nextDraw.block = b := rfl

theorem exec_ksExp_of_keyValid (hkey : s.keyValid = true) : exec .ksExp s = .next s.loadSchedule := by
  rw [exec_ksExp, if_pos hkey]

theorem exec_blkEncPre_of_schedValid (hvalid : s.schedValid = true) :
    exec .blkEncPre s = .next (s.writeBlock (enc s.rk s.block)).nextDraw := by
  rw [exec_blkEncPre, if_pos hvalid]

theorem exec_blkDecPre_of_schedValid (hvalid : s.schedValid = true) :
    exec .blkDecPre s = .next (s.writeBlock (dec s.rk s.block)).nextDraw := by
  rw [exec_blkDecPre, if_pos hvalid]

theorem exec_blkEncFus_of_keyValid (hkey : s.keyValid = true) :
    exec .blkEncFus s = .next (s.writeBlock (encFused s.k0 s.k1 s.block)).useKeyPair := by
  rw [exec_blkEncFus, if_pos hkey]

theorem exec_blkDecFus_of_keyValid (hkey : s.keyValid = true) :
    exec .blkDecFus s = .next (s.writeBlock (decFused s.k0 s.k1 s.block)).rebuildScratch.useKeyPair := by
  rw [exec_blkDecFus, if_pos hkey]

theorem exec_stream_of_keyValid (hkey : s.keyValid = true) (d : Dir) (k : KMode) :
    exec (decodeStr k d) s = .next (s.startStream d k) := by
  rw [exec_stream, if_pos hkey]

/-- The commands that need the key answer NO_KEY without it (R201, R261). -/
theorem exec_of_not_keyValid {i : Instr}
    (hi : i ∈ [Instr.ksExp, .blkEncFus, .blkDecFus, .strEncPre, .strDecPre, .strEncFus, .strDecFus])
    (hkey : s.keyValid = false) : exec i s = .next (s.raiseError .noKey) := by
  have stream : ∀ d k, exec (decodeStr k d) s = .next (s.raiseError .noKey) := fun d k => by simp [exec_stream, hkey]
  simp only [List.mem_cons, List.not_mem_nil, or_false] at hi
  obtain rfl | rfl | rfl | rfl | rfl | rfl | rfl := hi
  · simp [exec_ksExp, hkey]
  · simp [exec_blkEncFus, hkey]
  · simp [exec_blkDecFus, hkey]
  · exact stream .enc .pre
  · exact stream .dec .pre
  · exact stream .enc .fus
  · exact stream .dec .fus

end Sys2Proof.Machine

section
open Sys2Proof Sys2Proof.Machine

/-- Settles O8: each rotation is undone by the other. -/
theorem rotationsLoseNoBits : Obligations.RotationsLoseNoBits :=
  fun _ _ hpos hn => ⟨rotl64_rotr64 hn, rotr64_rotl64 hpos hn⟩

/-- Settles O1: each word is the encoding of its command, and decoding undoes encoding. -/
theorem decodeReadsTableWords : Obligations.DecodeReadsTableWords := by
  unfold Obligations.DecodeReadsTableWords
  simp only [decode_eq_ok_iff]
  decide

/-- Settles O9: the commands compute the rounds, in their closed forms. -/
theorem singleRoundCommandsComplete : Obligations.SingleRoundCommandsComplete := by
  intro s
  obtain ⟨hfx, hfy, hiy, hix⟩ := roundFunctionClosedForm s.block (s.value .rkin)
  exact ⟨⟨_, exec_rndF, hfx, hfy, rfl⟩, ⟨_, exec_rndI, hiy, hix, rfl⟩⟩

/-- Settles O10: RND_I reads the block RND_F wrote and the same RKIN, and its round undoes the other. -/
theorem rndIUndoesRndF : Obligations.RndIUndoesRndF := by
  intro s hw
  refine ⟨_, _, exec_rndF, exec_rndI, ?_⟩
  have hkey : (s.writeBlock (roundF s.block (s.value .rkin))).nextDraw.value .rkin = s.value .rkin := by
    simp [State.value, State.written, State.stored, hw]
  rw [block_writeBlock, hkey, roundI_roundF]
  exact ⟨rfl, rfl⟩

/-- Settles O14: round by round. -/
theorem blockDecryptionUndoesEncryption : Obligations.BlockDecryptionUndoesEncryption :=
  fun rk b => ⟨dec_enc rk b, enc_dec rk b⟩

/-- Settles O15: both modes run the same rounds with the same keys. -/
theorem fusedAgreesWithPrecomputed : Obligations.FusedAgreesWithPrecomputed :=
  fun k0 k1 b => ⟨encFused_eq_enc k0 k1 b, decFused_eq_dec k0 k1 b⟩

/-- Settles O12: with the key written KS_EXP loads the schedule. -/
theorem ksExpCompletes : Obligations.KsExpCompletes :=
  fun _ hkv0 hkv1 => exec_ksExp_of_keyValid (keyValid_eq_true hkv0 hkv1)

/-- Settles O17: the block written is the transform of the block read, under the table. -/
theorem precomputedBlockCommandsComplete : Obligations.PrecomputedBlockCommandsComplete :=
  fun _ hvalid =>
    ⟨⟨_, exec_blkEncPre_of_schedValid hvalid, rfl, rfl⟩, ⟨_, exec_blkDecPre_of_schedValid hvalid, rfl, rfl⟩⟩

/-- Settles O18: the block written is the transform of the block read, under the key words. -/
theorem fusedBlockCommandsComplete : Obligations.FusedBlockCommandsComplete := by
  intro s hkv0 hkv1
  have hkey := keyValid_eq_true hkv0 hkv1
  exact ⟨⟨_, exec_blkEncFus_of_keyValid hkey, rfl, rfl⟩, ⟨_, exec_blkDecFus_of_keyValid hkey, rfl, rfl, rfl⟩⟩

/-- Settles O19: after KS_EXP the table is the key's expansion and X and Y read as before, and the modes agree. -/
theorem fusedCommandMatchesKsExpThenPrecomputed : Obligations.FusedCommandMatchesKsExpThenPrecomputed := by
  intro s hkv0 hkv1
  have hkey := keyValid_eq_true hkv0 hkv1
  have hblock : s.loadSchedule.block = s.block := rfl
  refine ⟨_, _, _, _, _, exec_ksExp_of_keyValid hkey, exec_blkEncPre_of_schedValid rfl, exec_blkEncFus_of_keyValid hkey,
    ?_, ?_, exec_blkDecPre_of_schedValid rfl, exec_blkDecFus_of_keyValid hkey, ?_, ?_⟩
  all_goals simp [hblock, encFused_eq_enc, decFused_eq_dec]

/-- Settles O20: without the key the command is error entry, with ERR = 0. -/
theorem noKeyIsRaised : Obligations.NoKeyIsRaised := by
  intro s i hi hkey he
  rw [exec_of_not_keyValid hi (keyValid_eq_false hkey), raiseError_of_noErr he]

/-- Settles O26: the start of a precomputed stream, in either direction. -/
theorem precomputedStreamStartCompletes : Obligations.PrecomputedStreamStartCompletes := by
  intro s i d hi hkv0 hkv1
  have hkey := keyValid_eq_true hkv0 hkv1
  simp only [List.mem_cons, Prod.mk.injEq, List.not_mem_nil, or_false] at hi
  obtain ⟨rfl, rfl⟩ | ⟨rfl, rfl⟩ := hi
  · exact exec_stream_of_keyValid hkey .enc .pre
  · exact exec_stream_of_keyValid hkey .dec .pre

/-- Settles O27: the start of a fused stream, in either direction. -/
theorem fusedStreamStartCompletes : Obligations.FusedStreamStartCompletes := by
  intro s i d hi hkv0 hkv1
  have hkey := keyValid_eq_true hkv0 hkv1
  simp only [List.mem_cons, Prod.mk.injEq, List.not_mem_nil, or_false] at hi
  obtain ⟨rfl, rfl⟩ | ⟨rfl, rfl⟩ := hi
  · exact exec_stream_of_keyValid hkey .enc .fus
  · exact exec_stream_of_keyValid hkey .dec .fus

/-- Settles O21: without a schedule the command is error entry, with ERR = 0. -/
theorem noSchedIsRaised : Obligations.NoSchedIsRaised := by
  intro s i hi hvalid he
  rw [exec_blkPre_of_not_schedValid hi hvalid, raiseError_of_noErr he]

/-- Settles O16: one encryption is evaluated; the other three values follow by O14 and O15. -/
theorem referenceVectorConforms : Obligations.ReferenceVectorConforms := by
  have henc := enc_reference
  have hdec := dec_enc (expand 0x0706050403020100#64 0x0f0e0d0c0b0a0908#64)
    ⟨0x6c61766975716520#64, 0x7469206564616d20#64⟩
  rw [henc] at hdec
  exact ⟨henc, hdec, (encFused_eq_enc _ _ _).trans henc, (decFused_eq_dec _ _ _).trans hdec⟩

end

namespace Sys2Proof.Machine

variable {s t : State} {rest : List HostEvent}

/-! O28, O30 to O32: the phases of a running stream on the core's turn (43_stream_driver.md R203 to R209). -/

namespace State

theorem streamStep_of_pending (hb : s.busy = true) (he : s.err = false) (hp : s.sPend = true) :
    s.streamStep = s.writePhase := by
  simp [streamStep, hb, he, hp]

theorem streamStep_of_not_pending (hb : s.busy = true) (he : s.err = false) (hp : s.sPend = false) :
    s.streamStep = s.readPhase := by
  simp [streamStep, hb, he, hp]

/-- The state in which `InRead16` has handed over the next chunk (20_memory.md R84). -/
def consumeChunk (s : State) : State :=
  { s with
    inPtr := s.inPtr + (s.unread.take 16).length
    inPos := s.inPos + (s.unread.take 16).length }

theorem readPhase_of_inFail (he : s.err = false) (hf : s.inFail = true) : s.readPhase = some { s with
    inFail := false, err := true, errCode := .inErr, busy := false, sPend := false } := by
  simp [readPhase, inRead16, hf, raiseError, he]

theorem readPhase_of_chunk (hf : s.inFail = false) (havail : 16 ≤ s.unread.length ∨ s.inEnd = true)
    (hne : s.unread ≠ []) : s.readPhase = some (s.consumeChunk.takeChunk (s.unread.take 16)) := by
  simp [readPhase, inRead16, hf, havail, hne, consumeChunk]

theorem writePhase_of_outFail (he : s.err = false) {m : Fin 17} (hf : s.outFail = some m) :
    s.writePhase = some { s with
      output := s.output ++ (bytesOfBlock s.cfg.byteOrder s.ob).take m.val, outFail := none
      x := s.ob.x, y := s.ob.y, xWritten := true, yWritten := true
      err := true, errCode := .outErr, busy := false, sPend := false } := by
  simp [writePhase, outWrite16, hf, writeBlock, raiseError, he]

/-- The state after an accepted write phase (R203, R208, R209). -/
def blockWritten (s : State) : State :=
  { ({ s with output := s.output ++ bytesOfBlock s.cfg.byteOrder s.ob } : State).writeBlock s.ob with
    sPend := false, busy := s.busy && !s.sFinal }

theorem writePhase_of_accepted (hf : s.outFail = none) (hr : s.outReady = true) :
    s.writePhase = some s.blockWritten := by
  simp [writePhase, outWrite16, hf, hr, blockWritten]

/-- The transform by the latched mode, as a function of key words and table (R204). -/
def modeTransform (d : Dir) (k : KMode) (rk : Vector Word 32) (k0 k1 : Word) : Block → Block :=
  match d, k with
  | .enc, .pre => enc rk
  | .dec, .pre => dec rk
  | .enc, .fus => encFused k0 k1
  | .dec, .fus => decFused k0 k1

theorem transform_of_mode {d : Dir} {k : KMode} (hd : s.sDir = d) (hk : s.sKMode = k) (b : Block) :
    s.transform b = modeTransform d k s.rk s.k0 s.k1 b := by
  subst hd hk
  unfold transform modeTransform
  cases s.sDir <;> cases s.sKMode <;> rfl

/-- The transform uses the hidden key state and nothing else (R102, R204). -/
theorem transformHidden_eq (s : State) : s.transformHidden = { s with
    ka := s.transformHidden.ka, kb := s.transformHidden.kb, roundIdx := s.transformHidden.roundIdx
    srk := s.transformHidden.srk, draw := s.transformHidden.draw } := by
  unfold transformHidden
  split <;> rfl

theorem takeChunk_eq (s : State) (c : List Byte) : s.takeChunk c = { s with
    ob := (s.takeChunk c).ob, sFinal := s.sFinal || decide (c.length < 16), sPend := true
    ka := (s.takeChunk c).ka, kb := (s.takeChunk c).kb, roundIdx := (s.takeChunk c).roundIdx
    srk := (s.takeChunk c).srk, draw := (s.takeChunk c).draw } := by
  unfold takeChunk
  rw [transformHidden_eq]

end State

/-- On its turn the core takes its read phase, once that is answered. -/
theorem step_of_readPhase (hturn : s.coreNext rest) (hb : s.busy = true) (he : s.err = false) (hp : s.sPend = false)
    (hphase : ({ s with pending := rest } : State).readPhase = some t) : step s = .next t := by
  have hstep : ({ s with pending := rest } : State).streamStep = some t :=
    (State.streamStep_of_not_pending (s := { s with pending := rest }) hb he hp).trans hphase
  rw [step_coreNext hturn, State.coreTurn_of_some hstep]

/-- On its turn the core takes its write phase, once that is answered. -/
theorem step_of_writePhase (hturn : s.coreNext rest) (hb : s.busy = true) (he : s.err = false) (hp : s.sPend = true)
    (hphase : ({ s with pending := rest } : State).writePhase = some t) : step s = .next t := by
  have hstep : ({ s with pending := rest } : State).streamStep = some t :=
    (State.streamStep_of_pending (s := { s with pending := rest }) hb he hp).trans hphase
  rw [step_coreNext hturn, State.coreTurn_of_some hstep]

end Sys2Proof.Machine

section
open Sys2Proof Sys2Proof.Machine

/-- Settles O28: the read phase takes the chunk, and OB takes what the latched mode makes of it. -/
theorem readPhaseHoldsTransformedChunk : Obligations.ReadPhaseHoldsTransformedChunk := by
  rintro s rest c hturn hb he hp hf havail rfl hne
  have hunread : s.unread ≠ [] := fun h => hne (by rw [h]; rfl)
  refine ⟨_, _, step_of_readPhase hturn hb he hp (State.readPhase_of_chunk hf havail hunread), rfl,
    fun hd hk => State.transform_of_mode hd hk _, fun hd hk => State.transform_of_mode hd hk _,
    fun hd hk => State.transform_of_mode hd hk _, fun hd hk => State.transform_of_mode hd hk _, ?_⟩
  rw [State.takeChunk_eq]
  rfl

/-- Settles O30: the write phase whose request is accepted. -/
theorem acceptedWritePhaseCompletes : Obligations.AcceptedWritePhaseCompletes := by
  intro s rest hturn hb he hp hf hr
  rw [step_of_writePhase hturn hb he hp (State.writePhase_of_accepted hf hr)]
  simp [State.blockWritten, State.writeBlock, hb]

/-- Settles O31: each phase whose request fails. -/
theorem portFailureAbortsStream : Obligations.PortFailureAbortsStream := by
  constructor
  · intro s rest hturn hb he hp hf
    exact step_of_readPhase hturn hb he hp (State.readPhase_of_inFail he hf)
  · intro s rest m hturn hb he hp hf
    exact step_of_writePhase hturn hb he hp (State.writePhase_of_outFail (s := { s with pending := rest }) he hf)

/-- Settles O32: in none of the four cases is a stream step enabled. -/
theorem streamIsHeldWithoutAnswer : Obligations.StreamIsHeldWithoutAnswer := by
  intro s rest hturn hheld
  have hnone : ({ s with pending := rest } : State).streamStep = none := by
    rw [← Option.not_isSome_iff_eq_none, State.streamStep_isSome]
    rintro ⟨hb, he, hanswer⟩
    obtain hidle | herr | ⟨hp, hf, hlen, hend⟩ | ⟨hp, hf, hr⟩ := hheld
    · simp [hidle] at hb
    · simp [herr] at he
    · have hshort : ¬ 16 ≤ s.unread.length := by omega
      obtain ⟨hpend, -⟩ | ⟨-, hfail | hchunk | hmark⟩ := hanswer
      · simp [hp] at hpend
      · simp [hf] at hfail
      · exact hshort hchunk
      · simp [hend] at hmark
    · obtain ⟨-, hfail | hready⟩ | ⟨hpend, -⟩ := hanswer
      · exact hfail hf
      · simp [hr] at hready
      · simp [hp] at hpend
  rw [step_coreNext hturn, State.coreTurn_of_none hnone]

end

namespace Sys2Proof.Machine

variable {f g : Block → Block} {bo : ByteOrder} {a bs : List Byte}

/-! The ECB transform of a byte sequence (43_stream_driver.md R200, R214, R215, R217). -/

/-- Induction over the chunks of a byte sequence. -/
theorem chunk_induction {motive : List Byte → Prop} (nil : motive [])
    (chunk : ∀ bs : List Byte, bs ≠ [] → motive (bs.drop 16) → motive bs) (bs : List Byte) : motive bs := by
  induction hlen : bs.length using Nat.strong_induction_on generalizing bs with
  | _ n ih =>
    by_cases hbs : bs = []
    · exact hbs ▸ nil
    · have hpos : 0 < bs.length := List.length_pos_iff.2 hbs
      have hless : (bs.drop 16).length < n := by
        rw [List.length_drop]
        omega
      exact chunk bs hbs (ih _ hless (bs.drop 16) rfl)

theorem chunkOut_length (f : Block → Block) (bo : ByteOrder) (c : List Byte) : (chunkOut f bo c).length = 16 :=
  bytesOfBlock_length bo _

theorem ecb_length (f : Block → Block) (bo : ByteOrder) (bs : List Byte) :
    (ecb f bo bs).length = 16 * ((bs.length + 15) / 16) := by
  induction bs using chunk_induction with
  | nil => rfl
  | chunk bs hbs ih =>
    have hpos : 0 < bs.length := List.length_pos_iff.2 hbs
    rw [ecb_cons f bo hbs, List.length_append, chunkOut_length, ih, List.length_drop]
    omega

/-- A whole number of chunks in front is transformed as if what follows stood alone. -/
theorem ecb_append (ha : a.length % 16 = 0) : ecb f bo (a ++ bs) = ecb f bo a ++ ecb f bo bs := by
  induction a using chunk_induction with
  | nil => rfl
  | chunk a hne ih =>
    have hpos : 0 < a.length := List.length_pos_iff.2 hne
    have hlen : 16 ≤ a.length := by omega
    have hrest : (a.drop 16).length % 16 = 0 := by
      rw [List.length_drop]
      omega
    have happ : a ++ bs ≠ [] := by simp [hne]
    rw [ecb_cons f bo happ, ecb_cons f bo hne, List.take_append_of_le_length hlen, List.drop_append_of_le_length hlen,
      ih hrest, List.append_assoc]

/-- One chunk is one block. -/
theorem ecb_of_length_le (hne : bs ≠ []) (hlen : bs.length ≤ 16) : ecb f bo bs = chunkOut f bo bs := by
  rw [ecb_cons f bo hne, List.take_of_length_le hlen, List.drop_of_length_le hlen, ecb_nil, List.append_nil]

theorem zeroFill_length (hlen : bs.length ≤ 16) : (zeroFill bs).length = 16 := by
  rw [zeroFill, List.length_append, List.length_replicate]
  omega

theorem zeroFill_of_length_eq (hlen : bs.length = 16) : zeroFill bs = bs := by
  simp [zeroFill, hlen]

/-- Transforming the output block of a chunk back gives the zero-filled chunk. -/
theorem chunkOut_chunkOut (hfg : ∀ b, g (f b) = b) (hlen : bs.length ≤ 16) :
    chunkOut g bo (chunkOut f bo bs) = zeroFill bs := by
  rw [chunkOut, zeroFill_of_length_eq (chunkOut_length f bo bs), chunkOut, blockOfChunk_bytesOfBlock, hfg,
    bytesOfBlock_blockOfChunk bo _ (zeroFill_length hlen)]

/-- The zero bytes that round up to whole chunks (R215). -/
def padding (bs : List Byte) : List Byte := List.replicate ((16 - bs.length % 16) % 16) 0#8

/-- A full chunk in front needs no padding, a short one is zero-filled and the last. -/
theorem append_padding (hne : bs ≠ []) :
    bs ++ padding bs = zeroFill (bs.take 16) ++ (bs.drop 16 ++ padding (bs.drop 16)) := by
  have hpos : 0 < bs.length := List.length_pos_iff.2 hne
  by_cases hlen : 16 ≤ bs.length
  · have hmod : bs.length % 16 = (bs.length - 16) % 16 := by omega
    have hfull : (bs.take 16).length = 16 := by simp [hlen]
    rw [zeroFill_of_length_eq hfull, ← List.append_assoc, List.take_append_drop, padding, padding, List.length_drop,
      hmod]
  · have hfill : (16 - bs.length % 16) % 16 = 16 - bs.length := by omega
    rw [List.take_of_length_le (by omega), List.drop_of_length_le (by omega), padding, hfill]
    simp [zeroFill, padding]

/-- Transforming forth and back gives the input, zero-padded to whole chunks. -/
theorem ecb_ecb (hfg : ∀ b, g (f b) = b) : ecb g bo (ecb f bo bs) = bs ++ padding bs := by
  induction bs using chunk_induction with
  | nil => rfl
  | chunk bs hne ih =>
    have hwhole : (chunkOut f bo (bs.take 16)).length % 16 = 0 := by rw [chunkOut_length]
    have hblock : chunkOut f bo (bs.take 16) ≠ [] := by
      rw [← List.length_pos_iff, chunkOut_length]
      decide
    rw [ecb_cons f bo hne, ecb_append hwhole, ecb_of_length_le hblock (chunkOut_length f bo _).le,
      chunkOut_chunkOut hfg (by simp), ih, append_padding hne]

end Sys2Proof.Machine

namespace Sys2Proof.Machine

variable {s t u : State} {f : Block → Block}

/-! O33 to O36: whole runs of a stream command (43_stream_driver.md R200 to R217). -/

theorem runSteps_succ (hstep : step s = .next t) (n : Nat) : runSteps (n + 1) s = runSteps n t := by
  simp [runSteps, hstep]

theorem runSteps_add {m n : Nat} (hm : runSteps m s = .next u) (hn : runSteps n u = .next t) :
    runSteps (m + n) s = .next t := by
  induction m generalizing s with
  | zero =>
    cases hm
    rwa [Nat.zero_add]
  | succ m ih =>
    rw [Nat.succ_add]
    cases hstep : step s with
    | next s' => exact (runSteps_succ hstep _).trans (ih ((runSteps_succ hstep _).symm.trans hm))
    | fault r => simp [runSteps, hstep] at hm
    | refused r => simp [runSteps, hstep] at hm

/-- With no event pending the core takes its enabled stream step. -/
theorem step_of_streamStep (hp : s.pending = []) (hstep : s.streamStep = some t) : step s = .next t := by
  rw [step_nil hp, State.coreTurn_of_some hstep]

namespace State

/-- What neither the start of a stream nor a phase of it writes: the key, the byte order, the pin and the host's
acceptance. -/
def setting (s : State) : Word × Word × Bool × Bool × Config × Bool × Bool :=
  (s.k0, s.k1, s.kv0, s.kv1, s.cfg, s.rstN, s.outReady)

/-- A stream runs between two blocks, the host has no event pending, marked the end of the input and accepts output, and
the latched mode transforms blocks by `f`. -/
structure Streaming (f : Block → Block) (s : State) : Prop where
  busy : s.busy = true
  err : s.err = false
  sPend : s.sPend = false
  sFinal : s.sFinal = false
  pending : s.pending = []
  inEnd : s.inEnd = true
  inFail : s.inFail = false
  outReady : s.outReady = true
  outFail : s.outFail = none
  transform : s.transform = f

/-- The stream that runs in `s` has ended in `t`, its unread input transformed by `f` and appended. -/
structure StreamEnded (f : Block → Block) (s t : State) : Prop where
  pending : t.pending = []
  busy : t.busy = false
  err : t.err = false
  unread : t.unread = []
  output : t.output = s.output ++ ecb f s.cfg.byteOrder s.unread
  noBlock : s.unread = [] → t.x = s.x ∧ t.y = s.y
  lastBlock : s.unread ≠ [] → ∃ o, t.output = o ++ bytesOfBlock s.cfg.byteOrder ⟨t.x, t.y⟩
  setting : t.setting = s.setting

/-- The state after the next chunk of a stream is read and its block written. -/
def afterChunk (s : State) : State := (s.consumeChunk.takeChunk (s.unread.take 16)).blockWritten

@[simp] theorem afterChunk_err (s : State) : s.afterChunk.err = s.err := by
  simp [afterChunk, blockWritten, consumeChunk]
@[simp] theorem afterChunk_pending (s : State) : s.afterChunk.pending = s.pending := by
  simp [afterChunk, blockWritten, consumeChunk]
@[simp] theorem afterChunk_inEnd (s : State) : s.afterChunk.inEnd = s.inEnd := by
  simp [afterChunk, blockWritten, consumeChunk]
@[simp] theorem afterChunk_inFail (s : State) : s.afterChunk.inFail = s.inFail := by
  simp [afterChunk, blockWritten, consumeChunk]
@[simp] theorem afterChunk_outReady (s : State) : s.afterChunk.outReady = s.outReady := by
  simp [afterChunk, blockWritten, consumeChunk]
@[simp] theorem afterChunk_outFail (s : State) : s.afterChunk.outFail = s.outFail := by
  simp [afterChunk, blockWritten, consumeChunk]
@[simp] theorem afterChunk_cfg (s : State) : s.afterChunk.cfg = s.cfg := by
  simp [afterChunk, blockWritten, consumeChunk]
@[simp] theorem afterChunk_sDir (s : State) : s.afterChunk.sDir = s.sDir := by
  simp [afterChunk, blockWritten, consumeChunk]
@[simp] theorem afterChunk_sKMode (s : State) : s.afterChunk.sKMode = s.sKMode := by
  simp [afterChunk, blockWritten, consumeChunk]
@[simp] theorem afterChunk_rk (s : State) : s.afterChunk.rk = s.rk := by
  simp [afterChunk, blockWritten, consumeChunk]
@[simp] theorem afterChunk_k0 (s : State) : s.afterChunk.k0 = s.k0 := by
  simp [afterChunk, blockWritten, consumeChunk]
@[simp] theorem afterChunk_k1 (s : State) : s.afterChunk.k1 = s.k1 := by
  simp [afterChunk, blockWritten, consumeChunk]

theorem afterChunk_setting (s : State) : s.afterChunk.setting = s.setting := by
  simp [afterChunk, blockWritten, setting, consumeChunk]

theorem afterChunk_transform (s : State) : s.afterChunk.transform = s.transform := by
  funext b
  rw [transform_of_mode s.afterChunk_sDir s.afterChunk_sKMode, transform_of_mode rfl rfl]
  simp

theorem afterChunk_unread (s : State) : s.afterChunk.unread = s.unread.drop 16 := by
  have hdrop : s.unread.drop (s.unread.take 16).length = s.unread.drop 16 := by
    rw [List.length_take]
    obtain hlen | hlen := Nat.le_total 16 s.unread.length
    · rw [Nat.min_eq_left hlen]
    · rw [Nat.min_eq_right hlen, List.drop_length, List.drop_of_length_le hlen]
  rw [← hdrop, unread, unread, List.drop_drop]
  simp [afterChunk, blockWritten, consumeChunk, unread]

theorem afterChunk_xy (s : State) : Block.mk s.afterChunk.x s.afterChunk.y =
    s.transform (blockOfChunk s.cfg.byteOrder (zeroFill (s.unread.take 16))) := rfl

theorem afterChunk_output (s : State) : s.afterChunk.output =
    s.output ++ chunkOut s.transform s.cfg.byteOrder (s.unread.take 16) := by
  simp only [afterChunk, blockWritten, consumeChunk, chunkOut, takeChunk_ob, takeChunk_cfg, takeChunk_output]
  rfl

theorem afterChunk_busy (s : State) : s.afterChunk.busy =
    (s.busy && !(s.sFinal || decide ((s.unread.take 16).length < 16))) := by
  simp [afterChunk, blockWritten, consumeChunk]

theorem afterChunk_sFinal (s : State) : s.afterChunk.sFinal =
    (s.sFinal || decide ((s.unread.take 16).length < 16)) := rfl

namespace Streaming

/-- A read phase and a write phase take one chunk. -/
theorem runs_chunk (h : s.Streaming f) (hne : s.unread ≠ []) : runSteps 2 s = .next s.afterChunk := by
  have hread : s.streamStep = some (s.consumeChunk.takeChunk (s.unread.take 16)) := by
    rw [streamStep_of_not_pending h.busy h.err h.sPend, readPhase_of_chunk h.inFail (.inr h.inEnd) hne]
  have hwrite : (s.consumeChunk.takeChunk (s.unread.take 16)).streamStep = some s.afterChunk := by
    rw [streamStep_of_pending (by simpa [consumeChunk] using h.busy) (by simpa [consumeChunk] using h.err) rfl,
      writePhase_of_accepted (by simpa [consumeChunk] using h.outFail) (by simpa [consumeChunk] using h.outReady),
      State.afterChunk]
  calc runSteps 2 s = runSteps 1 _ := runSteps_succ (step_of_streamStep h.pending hread) 1
    _ = .next s.afterChunk :=
      runSteps_succ (step_of_streamStep (by simpa [consumeChunk] using h.pending) hwrite) 0

/-- After a full chunk the stream runs on. -/
theorem afterChunk (h : s.Streaming f) (hlen : 16 ≤ s.unread.length) : s.afterChunk.Streaming f where
  busy := by simp [afterChunk_busy, h.busy, h.sFinal, hlen]
  err := by simpa using h.err
  sPend := rfl
  sFinal := by simp [afterChunk_sFinal, h.sFinal, hlen]
  pending := by simpa using h.pending
  inEnd := by simpa using h.inEnd
  inFail := by simpa using h.inFail
  outReady := by simpa using h.outReady
  outFail := by simpa using h.outFail
  transform := s.afterChunk_transform.trans h.transform

/-- A short chunk is the last. -/
theorem ended_of_short (h : s.Streaming f) (hlen : s.unread.length < 16) :
    s.afterChunk.StreamEnded f s.afterChunk where
  pending := by simpa using h.pending
  busy := by simp [afterChunk_busy, h.sFinal, hlen]
  err := by simpa using h.err
  unread := by rw [afterChunk_unread, List.drop_of_length_le (by omega)]
  output := by rw [afterChunk_unread, List.drop_of_length_le (by omega), ecb_nil, List.append_nil]
  noBlock _ := ⟨rfl, rfl⟩
  lastBlock hne := absurd (by rw [afterChunk_unread, List.drop_of_length_le (by omega)]) hne
  setting := rfl

/-- The chunk in front and the rest of the stream make the whole. -/
theorem ended_of_afterChunk (h : s.Streaming f) (hne : s.unread ≠ []) (ht : s.afterChunk.StreamEnded f t) :
    s.StreamEnded f t where
  pending := ht.pending
  busy := ht.busy
  err := ht.err
  unread := ht.unread
  output := by
    rw [ht.output, afterChunk_output, afterChunk_unread, afterChunk_cfg, h.transform,
      ecb_cons f _ hne, List.append_assoc]
  noBlock hnil := absurd hnil hne
  lastBlock _ := by
    by_cases hlast : s.afterChunk.unread = []
    · obtain ⟨hx, hy⟩ := ht.noBlock hlast
      refine ⟨s.output, ?_⟩
      rw [ht.output, hlast, ecb_nil, List.append_nil, hx, hy, afterChunk_xy, afterChunk_output, chunkOut]
    · obtain ⟨o, ho⟩ := ht.lastBlock hlast
      exact ⟨o, by rw [ho, afterChunk_cfg]⟩
  setting := ht.setting.trans s.afterChunk_setting

/-- With nothing unread the stream ends (R205). -/
theorem ended_of_unread_nil (h : s.Streaming f) (hnil : s.unread = []) :
    runSteps 1 s = .next { s with busy := false } ∧ s.StreamEnded f { s with busy := false } := by
  have hstep := streamStep_of_endOfInput h.busy h.err h.sPend h.inFail h.inEnd hnil
  refine ⟨runSteps_succ (step_of_streamStep h.pending hstep) 0, ?_⟩
  exact
    { pending := h.pending
      busy := rfl
      err := h.err
      unread := hnil
      output := by rw [hnil, ecb_nil, List.append_nil]
      noBlock := fun _ => ⟨rfl, rfl⟩
      lastBlock := fun hne => absurd hnil hne
      setting := rfl }

/-- Chunk by chunk the stream comes to its end. -/
theorem runs_to_end (h : s.Streaming f) : ∃ n t, runSteps n s = .next t ∧ s.StreamEnded f t := by
  induction hbs : s.unread using chunk_induction generalizing s with
  | nil => exact ⟨1, _, h.ended_of_unread_nil hbs⟩
  | chunk bs hne ih =>
    subst hbs
    by_cases hlen : 16 ≤ s.unread.length
    · obtain ⟨n, t, hrun, ht⟩ := ih (h.afterChunk hlen) s.afterChunk_unread
      exact ⟨2 + n, t, runSteps_add (h.runs_chunk hne) hrun, h.ended_of_afterChunk hne ht⟩
    · exact ⟨2, _, h.runs_chunk hne, h.ended_of_afterChunk hne (h.ended_of_short (by omega))⟩

end Streaming

/-- The host issues a stream command to a free core with the key, on an input whose end is marked and an output it
accepts (R200). -/
structure StreamIssued (d : Dir) (k : KMode) (s : State) : Prop where
  idle : s.idle
  kv0 : s.kv0 = true
  kv1 : s.kv1 = true
  pending : s.pending = [stmtCMD (streamInstr d k)]
  inEnd : s.inEnd = true
  inFail : s.inFail = false
  outReady : s.outReady = true
  outFail : s.outFail = none

/-- A started stream transforms by its command's mode under the key (R202, R204). -/
theorem startStream_transform (s : State) (d : Dir) (k : KMode) :
    (s.startStream d k).transform = keyTransform d k s.k0 s.k1 := by
  cases d <;> cases k <;> rfl

theorem startStream_setting (s : State) (d : Dir) (k : KMode) : (s.startStream d k).setting = s.setting := by
  simp [setting]

@[simp] theorem startStream_unread (s : State) (d : Dir) (k : KMode) : (s.startStream d k).unread = s.unread := by
  simp [unread]

namespace StreamIssued

variable {d : Dir} {k : KMode}

theorem step_eq (h : s.StreamIssued d k) :
    step s = .next (({ s with pending := [] } : State).startStream d k) := by
  rw [step_stmtCMD_of_idle h.idle h.pending]
  have hkey : ({ s with pending := [] } : State).keyValid = true := keyValid_eq_true h.kv0 h.kv1
  exact exec_stream_of_keyValid hkey d k

theorem streaming (h : s.StreamIssued d k) :
    (({ s with pending := [] } : State).startStream d k).Streaming (keyTransform d k s.k0 s.k1) where
  busy := by simp
  err := by simpa using h.idle.2.2
  sPend := by simp
  sFinal := by simp
  pending := by simp
  inEnd := by simpa using h.inEnd
  inFail := by simpa using h.inFail
  outReady := by simpa using h.outReady
  outFail := by simpa using h.outFail
  transform := startStream_transform _ d k

/-- The command starts the stream, which comes to its end; what the start leaves alone is as in `s`. -/
theorem runs_to_end (h : s.StreamIssued d k) :
    ∃ n t, runSteps n s = .next t ∧ s.StreamEnded (keyTransform d k s.k0 s.k1) t := by
  obtain ⟨n, t, hrun, ht⟩ := h.streaming.runs_to_end
  have hunread : (({ s with pending := [] } : State).startStream d k).unread = s.unread := startStream_unread _ d k
  refine ⟨n + 1, t, (runSteps_succ h.step_eq n).trans hrun, ?_⟩
  exact
    { pending := ht.pending
      busy := ht.busy
      err := ht.err
      unread := ht.unread
      output := by simpa [hunread] using ht.output
      noBlock := fun hnil => by simpa using ht.noBlock (hunread.trans hnil)
      lastBlock := fun hne => by simpa using ht.lastBlock (hunread ▸ hne)
      setting := ht.setting.trans (startStream_setting _ d k) }

end StreamIssued

/-- Three host events attach new streams, supply the input and mark its end (20_memory.md R84, R93). -/
theorem runs_attach {p : List Byte} {e : HostEvent} (hb : s.busy = false)
    (hp : s.pending = [.attach, .inBytes p, .eos, e]) :
    runSteps 3 s = .next { s with
      input := p, inPtr := 0, inEnd := true, inFail := false, output := [], outFail := none, pending := [e] } := by
  simp [runSteps, step, hp, hostEvent, hostAttach, hostInput, hb]

/-- A stream command over a whole new input (R93, R200): it ends on a free core, with the transform of the input as the
output. -/
theorem runs_newStream {d : Dir} {k : KMode} {p : List Byte} (hidle : s.idle) (hkv0 : s.kv0 = true)
    (hkv1 : s.kv1 = true) (hready : s.outReady = true)
    (hp : s.pending = [.attach, .inBytes p, .eos, stmtCMD (streamInstr d k)]) :
    ∃ n t, runSteps n s = .next t ∧ t.pending = [] ∧ t.busy = false ∧ t.err = false ∧ t.setting = s.setting ∧
      t.output = ecb (keyTransform d k s.k0 s.k1) s.cfg.byteOrder p := by
  have hissued : ({ s with
      input := p, inPtr := 0, inEnd := true, inFail := false, output := [], outFail := none
      pending := [stmtCMD (streamInstr d k)] } : State).StreamIssued d k :=
    ⟨hidle, hkv0, hkv1, rfl, rfl, rfl, hready, rfl⟩
  obtain ⟨n, t, hrun, ht⟩ := hissued.runs_to_end
  exact ⟨3 + n, t, runSteps_add (runs_attach hidle.2.1 hp) hrun, ht.pending, ht.busy, ht.err, ht.setting, ht.output⟩

end State

/-- Under one key the commands of the two directions undo each other, whatever the key modes (42_block_cipher.md
R179). -/
theorem keyTransform_dec_enc (ke kd : KMode) (k0 k1 : Word) (b : Block) :
    keyTransform .dec kd k0 k1 (keyTransform .enc ke k0 k1 b) = b := by
  cases ke <;> cases kd <;> simp [keyTransform, encFused_eq_enc, decFused_eq_dec, dec_enc]

/-- The key mode does not matter to the transform (R179). -/
theorem keyTransform_eq_pre (d : Dir) (k : KMode) (k0 k1 : Word) :
    keyTransform d k k0 k1 = keyTransform d .pre k0 k1 := by
  funext b
  cases k with
  | pre => rfl
  | fus =>
    cases d with
    | enc => exact encFused_eq_enc k0 k1 b
    | dec => exact decFused_eq_dec k0 k1 b

end Sys2Proof.Machine

section
open Sys2Proof Sys2Proof.Machine

/-- Settles O33: the command starts a stream that ends with the transform of the unread input appended. -/
theorem streamCommandComputesEcb : Obligations.StreamCommandComputesEcb := by
  intro s d k hidle hkv0 hkv1 hp hend hfail hready hofail
  have hissued : s.StreamIssued d k := ⟨hidle, hkv0, hkv1, hp, hend, hfail, hready, hofail⟩
  obtain ⟨n, t, hrun, ht⟩ := hissued.runs_to_end
  exact ⟨n, t, hrun, ht.pending, ht.busy, ht.err, ht.unread, ht.output, ht.noBlock, ht.lastBlock⟩

/-- Settles O34: by O33, and the length of the transform. -/
theorem streamOutputLength : Obligations.StreamOutputLength := by
  intro s d k hidle hkv0 hkv1 hp hend hfail hready hofail
  obtain ⟨n, t, hrun, hpending, hb, he, -, hout, -, -⟩ :=
    streamCommandComputesEcb s d k hidle hkv0 hkv1 hp hend hfail hready hofail
  exact ⟨n, t, hrun, hpending, hb, he, by rw [hout, List.length_append, ecb_length]⟩

/-- Settles O36: the function is the ECB transform under the precomputed mode, which the fused mode agrees with. -/
theorem ecbBlocksAreIndependent : Obligations.EcbBlocksAreIndependent := by
  intro d k0 k1 bo
  refine ⟨ecb (keyTransform d .pre k0 k1) bo, ?_, fun a b ha => ecb_append ha, fun a hne hlen => ?_⟩
  · rintro s k hidle hkv0 hkv1 rfl rfl rfl hp hend hfail hready hofail
    obtain ⟨n, t, hrun, hpending, hb, he, -, hout, -, -⟩ :=
      streamCommandComputesEcb s d k hidle hkv0 hkv1 hp hend hfail hready hofail
    exact ⟨n, t, hrun, hpending, hb, he, by rw [hout, keyTransform_eq_pre]⟩
  · have hfill : (zeroFill a).length = 16 := zeroFill_length hlen
    have hfillne : zeroFill a ≠ [] := by
      rw [← List.length_pos_iff, hfill]
      decide
    show _ = ecb _ bo (zeroFill a)
    rw [ecb_of_length_le hne hlen, ecb_of_length_le hfillne hfill.le, chunkOut, chunkOut, zeroFill_of_length_eq hfill]

/-- Settles O35: two runs of O33 under one key, whose transforms undo each other. -/
theorem streamRoundTripReturnsPaddedInput : Obligations.StreamRoundTripReturnsPaddedInput := by
  intro s p ke kd hidle hkv0 hkv1 hready hp
  obtain ⟨n, t, hrun, hpending, hb, he, hset, hout⟩ := State.runs_newStream hidle hkv0 hkv1 hready hp
  refine ⟨n, t, hrun, hpending, hb, he, ?_⟩
  simp only [State.setting, Prod.mk.injEq] at hset
  obtain ⟨hk0, hk1, hkv0', hkv1', hcfg, hn, hready'⟩ := hset
  obtain ⟨m, u, hrun', hpending', hb', he', -, hout'⟩ := State.runs_newStream
    (s := { t with pending := [.attach, .inBytes t.output, .eos, stmtCMD (streamInstr .dec kd)] })
    ⟨hn.trans hidle.1, hb, he⟩ (hkv0'.trans hkv0) (hkv1'.trans hkv1) (hready'.trans hready) rfl
  refine ⟨m, u, hrun', hpending', hb', he', ?_⟩
  rw [hout']
  dsimp only
  rw [hk0, hk1, hcfg, hout, ecb_ecb (keyTransform_dec_enc ke kd s.k0 s.k1), padding]

end
